-- ==== Sys2Proof/Word.lean ====
section
/-! DEFINITION. The plain value types of the block: the command word and the host port's value, the sample
container, and a triple (a pixel of three channels, a matrix row, a matrix of three rows). -/

namespace Sys2Proof

/-- A command word, 32 bits, bit 0 least significant (30_encoding.md R45). -/
abbrev CmdWord := BitVec 32

/-- A value of the host port, an unsigned integer below 2^64 (43_host_port.md R89). -/
abbrev HostValue := BitVec 64

/-- The number of a register, 0x00 to 0xFF (43_host_port.md R89). -/
abbrev RegNumber := BitVec 8

/-- The sample container of a frame, `SW : 8 or 16` (20_memory.md R31). -/
inductive Container where
  | w8
  | w16
  deriving DecidableEq, Repr, Inhabited

/-- SW, the container's width in bits (20_memory.md R31). -/
def Container.bits : Container → Nat
  | .w8 => 8
  | .w16 => 16

/-- Three values, indexed 0, 1, 2: a pixel of three channels, a row of a matrix, a matrix written as a list of
three rows (42_matrix_converter.md R80). -/
structure Triple (α : Type) where
  t0 : α
  t1 : α
  t2 : α
  deriving DecidableEq, Repr

end Sys2Proof
end

