-- ==== Sys2Proof/Config.lean ====
section
/-! DEFINITION. The constants and parameters of 00_scope.md R5, and the free values the spec leaves open (constants
with no body: nothing can be proved of which value they take). -/

namespace Sys2Proof

/-- `WB_I`, integer bits of the gain format of the gain applier (00_scope.md R5). -/
def Config.wbI : Nat := 16

/-- `WB_F`, fractional bits of the gain format of the gain applier (00_scope.md R5). -/
def Config.wbF : Nat := 8

/-- `CSC_SHIFT`, the right-shift amount of the matrix converter (00_scope.md R5). -/
def Config.cscShift : Nat := 6

/-- `CSC_OFFSET`, subtracted from (luma, chroma1, chroma2) (00_scope.md R5). -/
def Config.cscOffset : Triple Int := ⟨16, 128, 128⟩

/-- `CSC_OUT_MAX`, the upper clip of the matrix converter (00_scope.md R5). -/
def Config.cscOutMax : Int := 255

/-- `MATRIX_A`, the matrix of selector value 1 (00_scope.md R5, 42_matrix_converter.md R79). -/
def Config.matrixA : Triple (Triple Int) :=
  ⟨⟨74, 0, 114⟩, ⟨74, -13, -34⟩, ⟨74, 135, 0⟩⟩

/-- `MATRIX_B`, the matrix of every other selector value (00_scope.md R5, 42_matrix_converter.md R79). It is
transcribed as printed (93_implementation_defined.md U9). -/
def Config.matrixB : Triple (Triple Int) :=
  ⟨⟨64, 87, 0⟩, ⟨64, -44, -20⟩, ⟨61, 0, 105⟩⟩

/-- `Q_MAX_BITS`, the largest I + F that `QUANT` accepts (00_scope.md R5, D6). -/
def Config.qMaxBits : Nat := 32

/-- `Q_FIELD_W`, the width of the I and F fields of `QUANT` (00_scope.md R5, D9). -/
def Config.qFieldWidth : Nat := 6

/-- The largest height and width of a frame, from `DIM_W` = 16 (00_scope.md R5, D29). -/
def Config.dimMax : Nat := 65535

/-- The largest channel count of a frame (20_memory.md R31). -/
def Config.channelMax : Nat := 255

/-- FREE VALUE (log 5). The draw of 40_quantizer.md R60 for a NaN gain: which code comes out is open. It is applied
to the number of the draw, the gain pattern and the format, and reduced to the format's codes where it is used. -/
opaque Config.freeCode (draw : Nat) (pattern : BitVec 64) (i f : Nat) : BitVec 32

/-- FREE VALUE (log 4). The height of an unspecified frame (10_state.md R30, 20_memory.md R32 and R33). -/
opaque Config.freeHeight (n : Nat) : BitVec 16

/-- FREE VALUE (log 4). The width of an unspecified frame. -/
opaque Config.freeWidth (n : Nat) : BitVec 16

/-- FREE VALUE (log 4). The channel count of an unspecified frame. -/
opaque Config.freeChannels (n : Nat) : BitVec 8

/-- FREE VALUE (log 4). The sample container of an unspecified frame. -/
opaque Config.freeContainer (n : Nat) : Container

/-- FREE VALUE (log 4). The sample at (r, c, k) of an unspecified frame; its container keeps the low bits. -/
opaque Config.freeSample (n r c k : Nat) : BitVec 16

end Sys2Proof
end

