-- ==== Sys2Proof/Syntax.lean ====
section
/-! DEFINITION. The instruction set as syntax: the three commands of 30_encoding.md R48, one constructor per row of
spec/opcode_table.json. -/

namespace Sys2Proof

/-- A command of the block (30_encoding.md R46). The two operands of `QUANT` are the counts I and F of its word,
0 to 63 each (R47); `WBAPPLY` and `Y2R` take every operand from registers and from FIN. -/
inductive Instr where
  | quant (i f : Nat)
  | wbapply
  | y2r
  deriving DecidableEq, Repr

end Sys2Proof
end

