-- ==== Sys2Proof/WellFormed.lean ====
section
/-! DEFINITION. Which terms of Instr stand for a command word: the operands must fit their fields. -/

namespace Sys2Proof

/-- A count fits its 6-bit field: an unsigned integer 0 to 63 (30_encoding.md R47). -/
abbrev fitsField (n : Nat) : Prop := n < 2 ^ Config.qFieldWidth

/-- An instruction is well formed when its operands fit the fields of format `C` (30_encoding.md R45, R47). The
narrower legal range of `QUANT` is checked by the command, not here (R47, R49). -/
def Instr.wf : Instr → Bool
  | .quant i f => decide (fitsField i) && decide (fitsField f)
  | .wbapply => true
  | .y2r => true

end Sys2Proof
end

