-- ==== Sys2Proof/Decode.lean ====
section
/-! DEFINITION. The decoder, total on 32-bit words (30_encoding.md R56), the names of its rejections (R49), the
opcode map as rows (R48), and the encoder. -/

namespace Sys2Proof

/-- Why a word is illegal: the four cases of 30_encoding.md R49. -/
inductive Illegal where
  /-- OPC is 0x00 or 0x04 to 0xFF. -/
  | unknownOpcode
  /-- OPC is a command's, and a bit of [31:20] is set. -/
  | zeroFieldSet
  /-- OPC is `WBAPPLY`'s or `Y2R`'s, [31:20] is 0, and a bit of [19:8] is set. -/
  | operandFieldSet
  deriving DecidableEq, Repr

/-- What a word decodes to: a command, or Illegal (30_encoding.md R56). -/
inductive Decoded where
  | command (i : Instr)
  | illegal (why : Illegal)
  deriving DecidableEq, Repr

/-- A row of the opcode map: a word w encodes the row's command exactly when `w & mask == match`
(30_encoding.md R48). -/
structure OpcodeRow where
  mnemonic : String
  mask : CmdWord
  pattern : CmdWord
  deriving DecidableEq, Repr

/-- The row of `QUANT I, F` (30_encoding.md R48). -/
def quantRow : OpcodeRow := ⟨"QUANT", 0xFFF000FF, 0x00000001⟩

/-- The row of `WBAPPLY` (30_encoding.md R48). -/
def wbapplyRow : OpcodeRow := ⟨"WBAPPLY", 0xFFFFFFFF, 0x00000002⟩

/-- The row of `Y2R` (30_encoding.md R48). -/
def y2rRow : OpcodeRow := ⟨"Y2R", 0xFFFFFFFF, 0x00000003⟩

/-- The opcode map, "complete as follows" (30_encoding.md R48). -/
def opcodeMap : List OpcodeRow := [quantRow, wbapplyRow, y2rRow]

/-- A word matches a row (30_encoding.md R48). -/
def OpcodeRow.matchesWord (row : OpcodeRow) (w : CmdWord) : Bool := w &&& row.mask == row.pattern

/-- The field `OPC`, word[7:0] (30_encoding.md R45). -/
def opcField (w : CmdWord) : Nat := (w.extractLsb' 0 8).toNat

/-- The field `IBITS`, word[13:8]: the count I (30_encoding.md R45, R47). -/
def ibitsField (w : CmdWord) : Nat := (w.extractLsb' 8 6).toNat

/-- The field `FBITS`, word[19:14]: the count F (30_encoding.md R45, R47). -/
def fbitsField (w : CmdWord) : Nat := (w.extractLsb' 14 6).toNat

/-- The field `ZERO`, word[31:20] (30_encoding.md R45). -/
def zeroField (w : CmdWord) : Nat := (w.extractLsb' 20 12).toNat

/-- Which case of 30_encoding.md R49 a word that matches no row falls under. -/
def illegalReason (w : CmdWord) : Illegal :=
  if opcField w = 0 ∨ 3 < opcField w then .unknownOpcode
  else if zeroField w ≠ 0 then .zeroFieldSet
  else .operandFieldSet

/-- The decoder (30_encoding.md R56). No state but the word decides it. -/
def decode (w : CmdWord) : Decoded :=
  if quantRow.matchesWord w then .command (.quant (ibitsField w) (fbitsField w))
  else if wbapplyRow.matchesWord w then .command .wbapply
  else if y2rRow.matchesWord w then .command .y2r
  else .illegal (illegalReason w)

/-- The command word a value written to CMD carries: v[31:0] (43_host_port.md R89, R93). -/
def commandWord (v : HostValue) : CmdWord := v.extractLsb' 0 32

/-- The encoder: the word of an instruction, from the fields of format `C` (30_encoding.md R45, R48). -/
def encode : Instr → CmdWord
  | .quant i f => 0#12 ++ (BitVec.ofNat 6 f ++ (BitVec.ofNat 6 i ++ 0x01#8))
  | .wbapply => 0#12 ++ (0#6 ++ (0#6 ++ 0x02#8))
  | .y2r => 0#12 ++ (0#6 ++ (0#6 ++ 0x03#8))

/-- The value the host writes to CMD for a table word of nbits bits, every bit above them 0. There is no byte order
to lay it out in: the command word is a whole register value (20_memory.md R37). -/
def tableValue (nbits w : Nat) : HostValue := BitVec.ofNat 64 (w % 2 ^ nbits)

/-- The instruction the decoder reads from a table word, none where it refuses. -/
def decodeTableWord (nbits w : Nat) : Option Instr :=
  match decode (commandWord (tableValue nbits w)) with
  | .command i => some i
  | .illegal _ => none

end Sys2Proof
end

