-- ==== Sys2Proof/Machine/Frame.lean ====
section
/-! DEFINITION. The frame (20_memory.md R31), its sample accesses (R34), and the content of a frame memory (R32, R33). -/

namespace Sys2Proof.Machine

/-- A frame as plain data (20_memory.md R31): "a list of rows, a row as a list of pixels" (00_scope.md R8), a pixel as
the list of its samples, channel 0 first. `Frame.wf` says that the lists have the shape of the descriptor and that
every sample fits the container; the form is canonical, so equal frames are equal data. -/
structure Frame where
  height : Nat
  width : Nat
  channels : Nat
  container : Container
  data : List (List (List Nat))
  deriving DecidableEq, Repr

/-- Every sample of a pixel fits the container: 0 ≤ data[r][c][k] < 2^SW (20_memory.md R31). -/
def pixelOk (channels : Nat) (sw : Container) (px : List Nat) : Bool :=
  decide (px.length = channels) && px.all (fun v => decide (v < 2 ^ sw.bits))

/-- A row holds one pixel per column. -/
def rowOk (width channels : Nat) (sw : Container) (row : List (List Nat)) : Bool :=
  decide (row.length = width) && row.all (pixelOk channels sw)

/-- The conditions of 20_memory.md R31 on a frame. -/
def Frame.wf (f : Frame) : Bool :=
  decide (f.height ≤ Config.dimMax) && decide (f.width ≤ Config.dimMax) &&
    decide (f.channels ≤ Config.channelMax) && decide (f.data.length = f.height) &&
    f.data.all (rowOk f.width f.channels f.container)

/-- A Frame in the sense of 20_memory.md R31: data that meets its conditions. This is what a host-port transaction
carries (43_host_port.md R91). -/
abbrev Frame.Legal := { f : Frame // f.wf = true }

/-- The read primitive `data[r][c][k]` (20_memory.md R34), none outside the frame. -/
def Frame.sample? (f : Frame) (r c k : Nat) : Option Nat := do
  let row ← f.data[r]?
  let px ← row[c]?
  px[k]?

/-- `data[r][c][k]` inside the frame; no command reads outside it (20_memory.md R34, log 7). -/
def Frame.sample (f : Frame) (r c k : Nat) : Nat := (f.sample? r c k).getD 0

/-- A triple (r, c, k) addresses a sample of the frame (20_memory.md R34). -/
abbrev Frame.inside (f : Frame) (r c k : Nat) : Prop := r < f.height ∧ c < f.width ∧ k < f.channels

/-- The frame of a given descriptor whose sample at (r, c, k) is `sampleAt r c k`: how a frame command writes a whole
frame (20_memory.md R33). -/
def Frame.build (height width channels : Nat) (sw : Container) (sampleAt : Nat → Nat → Nat → Nat) : Frame :=
  { height, width, channels, container := sw
    data := (List.range height).map fun r => (List.range width).map fun c =>
      (List.range channels).map fun k => sampleAt r c k }

/-- The n-th unspecified frame: every part of it is a free value, within the ranges of 20_memory.md R31 (log 4). -/
def Frame.unspecified (n : Nat) : Frame :=
  Frame.build (Config.freeHeight n).toNat (Config.freeWidth n).toNat (Config.freeChannels n).toNat
    (Config.freeContainer n)
    fun r c k => (Config.freeSample n r c k).toNat % 2 ^ (Config.freeContainer n).bits

/-- The content of a frame memory: unspecified since a reset (a named free frame), or a frame that was written
(20_memory.md R32, R33, 10_state.md R30). -/
inductive Memory where
  | unspecified (n : Nat)
  | holds (f : Frame)
  deriving DecidableEq, Repr

/-- The frame a memory holds: every frame memory "holds one Frame" (20_memory.md R32, R33). -/
def Memory.frame : Memory → Frame
  | .unspecified n => Frame.unspecified n
  | .holds f => f

/-- The canonical form of a memory: what it lists is a Frame of 20_memory.md R31. -/
def Memory.wf : Memory → Bool
  | .unspecified _ => true
  | .holds f => f.wf

end Sys2Proof.Machine
end

