-- ==== Sys2Proof/Machine/State.lean ====
section
/-! DEFINITION. The state of the machine: the thirteen state-holding registers and the two frame memories of
10_state.md R9, the model's count of free values drawn, and the host's side of the port. Faults, refusals, reset. -/

namespace Sys2Proof.Machine

/-- A transaction of the host port (43_host_port.md R88). -/
inductive Transaction where
  /-- `RegWrite(n, v)` (R89). -/
  | regWrite (n : RegNumber) (v : HostValue)
  /-- `RegRead(n)` (R90). -/
  | regRead (n : RegNumber)
  /-- `HostLoadFrame(f)`, f a Frame (R91). -/
  | loadFrame (f : Frame.Legal)
  /-- `HostReadFrame()` (R92). -/
  | readFrame
  deriving DecidableEq, Repr

/-- What reaches the block from outside: a transaction, or the external reset, which may occur only between
transactions (70_reset_and_hazards.md R107). -/
inductive HostEvent where
  | transaction (t : Transaction)
  | reset
  deriving DecidableEq, Repr

/-- A value a transaction returned: of `RegRead` a register's value, of `HostReadFrame` what FOUT held
(43_host_port.md R90, R92). -/
inductive Returned where
  | value (v : HostValue)
  | frame (m : Memory)
  deriving DecidableEq, Repr

/-- The host's side of the port, outside the block's state (10_state.md R24): the host program's events not yet
performed, oldest first; the index into the program's transactions; the values returned so far, oldest first
(70_reset_and_hazards.md R116). -/
structure HostSide where
  pending : List HostEvent
  index : Nat
  returned : List Returned
  deriving DecidableEq, Repr

/-- The state. Register widths are those of the table of 10_state.md R10; CMD stores nothing (R12). -/
structure State where
  /-- STATUS, 0x00 (R11). -/
  status : BitVec 8
  /-- WB_CTRL, 0x02 (R13). -/
  wbCtrl : BitVec 1
  /-- SENSOR_BAYER, 0x03 (R14). -/
  sensorBayer : BitVec 8
  /-- SENSOR_BITDEPTH, 0x04 (R15). -/
  sensorBitdepth : BitVec 5
  /-- WB_RGAIN_IN, 0x05 (R16). -/
  wbRgainIn : BitVec 64
  /-- WB_BGAIN_IN, 0x06 (R16). -/
  wbBgainIn : BitVec 64
  /-- WB_RGAIN_Q, 0x07 (R17). -/
  wbRgainQ : BitVec 24
  /-- WB_BGAIN_Q, 0x08 (R17). -/
  wbBgainQ : BitVec 24
  /-- CSC_CTRL, 0x09 (R18). -/
  cscCtrl : BitVec 1
  /-- CSC_STD, 0x0A (R19). -/
  cscStd : BitVec 8
  /-- Q_IN, 0x0B (R20). -/
  qIn : BitVec 64
  /-- Q_OUT, 0x0C (R21). -/
  qOut : BitVec 32
  /-- Q_FMT, 0x0D (R22). -/
  qFmt : BitVec 12
  /-- FIN, the input frame memory (20_memory.md R32). -/
  fin : Memory
  /-- FOUT, the output frame memory (20_memory.md R33). -/
  fout : Memory
  /-- The model's own: how many free values were drawn (log 6). -/
  draws : Nat
  /-- The host's side of the port (10_state.md R24, log 1). -/
  host : HostSide
  deriving DecidableEq, Repr

/-- Nothing faults: an error completion writes STATUS.ERR and the machine goes on (60_exceptions.md R100, R103), and
"nothing can hang" (70_reset_and_hazards.md R116). No constructor, so no step can end in a fault. -/
inductive Fault where
  deriving DecidableEq, Repr

/-- Why the model would give a step no meaning. -/
inductive Refusal where
  /-- An instruction whose meaning is not written yet. Raised by nothing: every command has its meaning. Safe. -/
  | notModelled (mnemonic : String)
  deriving DecidableEq, Repr

/-- The machine right after reset: every register 0 (10_state.md R30), FIN and FOUT unspecified (two free frames,
log 4), no command executed (70_reset_and_hazards.md R108), nothing pending on the host's side (log 2). -/
def State.reset : State :=
  { status := 0
    wbCtrl := 0
    sensorBayer := 0
    sensorBitdepth := 0
    wbRgainIn := 0
    wbBgainIn := 0
    wbRgainQ := 0
    wbBgainQ := 0
    cscCtrl := 0
    cscStd := 0
    qIn := 0
    qOut := 0
    qFmt := 0
    fin := .unspecified 0
    fout := .unspecified 1
    draws := 2
    host := { pending := [], index := 0, returned := [] } }

end Sys2Proof.Machine
end

