-- ==== Sys2Proof/Machine/Flags.lean ====
section
/-! DEFINITION. The fields of STATUS (10_state.md R11) and the completion codes (60_exceptions.md R95). STATUS is the
only register with flags (10_state.md R25). -/

namespace Sys2Proof.Machine

/-- The completion conditions (60_exceptions.md R95). -/
inductive Completion where
  | success
  | invalidPattern
  /-- A warning: reported by the SAT flags, never written to ERR (60_exceptions.md R99). -/
  | outOfRangeGain
  | shapeMismatch
  | illegalOperation
  deriving DecidableEq, Repr

/-- The code of a completion condition (60_exceptions.md R95). -/
def Completion.code : Completion → BitVec 3
  | .success => 0
  | .invalidPattern => 1
  | .outOfRangeGain => 2
  | .shapeMismatch => 3
  | .illegalOperation => 4

/-- STATUS.ERR, bits [2:0] (10_state.md R11). -/
def statusErr (st : BitVec 8) : BitVec 3 := st.extractLsb' 0 3

/-- STATUS.SAT_R, bit 3 (10_state.md R11). -/
def statusSatR (st : BitVec 8) : Bool := st.getLsbD 3

/-- STATUS.SAT_B, bit 4 (10_state.md R11). -/
def statusSatB (st : BitVec 8) : Bool := st.getLsbD 4

/-- STATUS.SAT_Q, bit 5 (10_state.md R11). -/
def statusSatQ (st : BitVec 8) : Bool := st.getLsbD 5

/-- STATUS bits [7:6], which read as 0 (10_state.md R11). -/
def statusReserved (st : BitVec 8) : BitVec 2 := st.extractLsb' 6 2

/-- One bit of a register written, the others kept. -/
def putBit (st : BitVec 8) (k : Nat) (b : Bool) : BitVec 8 :=
  if b then st ||| (1#8 <<< k) else st &&& ~~~(1#8 <<< k)

/-- `reg[STATUS].ERR <- e`: the other bits keep their value (10_state.md R11). -/
def setErr (st : BitVec 8) (e : BitVec 3) : BitVec 8 := st.extractLsb' 3 5 ++ e

/-- `reg[STATUS].SAT_R <- b`. -/
def setSatR (st : BitVec 8) (b : Bool) : BitVec 8 := putBit st 3 b

/-- `reg[STATUS].SAT_B <- b`. -/
def setSatB (st : BitVec 8) (b : Bool) : BitVec 8 := putBit st 4 b

/-- `reg[STATUS].SAT_Q <- b`. -/
def setSatQ (st : BitVec 8) (b : Bool) : BitVec 8 := putBit st 5 b

end Sys2Proof.Machine
end

