-- ==== Sys2Proof/Machine/Operands.lean ====
section
/-! DEFINITION. The operands of the commands and of the host port: registers by number (10_state.md R10), the gain
input format (R29), the Bayer pattern (30_encoding.md R50) and the tile it lays out (41_gain_applier.md R67, R68). -/

namespace Sys2Proof.Machine

/-- The fourteen registers (10_state.md R10). -/
inductive RegName where
  | status
  | cmd
  | wbCtrl
  | sensorBayer
  | sensorBitdepth
  | wbRgainIn
  | wbBgainIn
  | wbRgainQ
  | wbBgainQ
  | cscCtrl
  | cscStd
  | qIn
  | qOut
  | qFmt
  deriving DecidableEq, Repr

/-- Who reads and writes a register at the host port (10_state.md R10). -/
inductive Access where
  | rw
  | ro
  | wo
  deriving DecidableEq, Repr

/-- The number of a register (10_state.md R10). -/
def RegName.number : RegName → RegNumber
  | .status => 0x00
  | .cmd => 0x01
  | .wbCtrl => 0x02
  | .sensorBayer => 0x03
  | .sensorBitdepth => 0x04
  | .wbRgainIn => 0x05
  | .wbBgainIn => 0x06
  | .wbRgainQ => 0x07
  | .wbBgainQ => 0x08
  | .cscCtrl => 0x09
  | .cscStd => 0x0A
  | .qIn => 0x0B
  | .qOut => 0x0C
  | .qFmt => 0x0D

/-- The register a number names; 0x0E to 0xFF are not implemented (10_state.md R10). -/
def RegName.ofNumber (n : RegNumber) : Option RegName :=
  match n.toNat with
  | 0x00 => some .status
  | 0x01 => some .cmd
  | 0x02 => some .wbCtrl
  | 0x03 => some .sensorBayer
  | 0x04 => some .sensorBitdepth
  | 0x05 => some .wbRgainIn
  | 0x06 => some .wbBgainIn
  | 0x07 => some .wbRgainQ
  | 0x08 => some .wbBgainQ
  | 0x09 => some .cscCtrl
  | 0x0A => some .cscStd
  | 0x0B => some .qIn
  | 0x0C => some .qOut
  | 0x0D => some .qFmt
  | _ => none

/-- The access right of a register (10_state.md R10). -/
def RegName.access : RegName → Access
  | .status => .ro
  | .cmd => .wo
  | .wbCtrl => .rw
  | .sensorBayer => .rw
  | .sensorBitdepth => .rw
  | .wbRgainIn => .rw
  | .wbBgainIn => .rw
  | .wbRgainQ => .ro
  | .wbBgainQ => .ro
  | .cscCtrl => .rw
  | .cscStd => .rw
  | .qIn => .rw
  | .qOut => .ro
  | .qFmt => .ro

/-- The width of a register in bits (10_state.md R10). -/
def RegName.width : RegName → Nat
  | .status => 8
  | .cmd => 32
  | .wbCtrl => 1
  | .sensorBayer => 8
  | .sensorBitdepth => 5
  | .wbRgainIn => 64
  | .wbBgainIn => 64
  | .wbRgainQ => 24
  | .wbBgainQ => 24
  | .cscCtrl => 1
  | .cscStd => 8
  | .qIn => 64
  | .qOut => 32
  | .qFmt => 12

/-- `reg[n]`, zero-extended to 64 bits; CMD reads 0 (43_host_port.md R90). -/
def State.readReg (s : State) : RegName → HostValue
  | .status => s.status.setWidth 64
  | .cmd => 0
  | .wbCtrl => s.wbCtrl.setWidth 64
  | .sensorBayer => s.sensorBayer.setWidth 64
  | .sensorBitdepth => s.sensorBitdepth.setWidth 64
  | .wbRgainIn => s.wbRgainIn
  | .wbBgainIn => s.wbBgainIn
  | .wbRgainQ => s.wbRgainQ.setWidth 64
  | .wbBgainQ => s.wbBgainQ.setWidth 64
  | .cscCtrl => s.cscCtrl.setWidth 64
  | .cscStd => s.cscStd.setWidth 64
  | .qIn => s.qIn
  | .qOut => s.qOut.setWidth 64
  | .qFmt => s.qFmt.setWidth 64

/-- `reg[n] <- v[w−1:0]` of an RW register of width w; a write to an RO register changes nothing, and CMD stores
nothing (43_host_port.md R89, 10_state.md R12). -/
def State.writeReg (s : State) (n : RegName) (v : HostValue) : State :=
  match n with
  | .status => s
  | .cmd => s
  | .wbCtrl => { s with wbCtrl := v.setWidth 1 }
  | .sensorBayer => { s with sensorBayer := v.setWidth 8 }
  | .sensorBitdepth => { s with sensorBitdepth := v.setWidth 5 }
  | .wbRgainIn => { s with wbRgainIn := v }
  | .wbBgainIn => { s with wbBgainIn := v }
  | .wbRgainQ => s
  | .wbBgainQ => s
  | .cscCtrl => { s with cscCtrl := v.setWidth 1 }
  | .cscStd => { s with cscStd := v.setWidth 8 }
  | .qIn => { s with qIn := v }
  | .qOut => s
  | .qFmt => s

/-- A decoded gain input (00_scope.md R8): a rational, an infinity, or NaN. -/
inductive GainIn where
  | finite (x : ℚ)
  | posInf
  | negInf
  | nan
  deriving DecidableEq, Repr

/-- The sign bit b[63] (10_state.md R29). -/
def gainSign (b : BitVec 64) : Bool := b.getLsbD 63

/-- The exponent field b[62:52] (10_state.md R29). -/
def gainExponent (b : BitVec 64) : Nat := (b.extractLsb' 52 11).toNat

/-- The fraction field b[51:0] (10_state.md R29). -/
def gainFraction (b : BitVec 64) : Nat := (b.extractLsb' 0 52).toNat

/-- `decode_gain`, the binary64 decode of a gain input pattern, exact (10_state.md R29; D2). -/
def decodeGain (b : BitVec 64) : GainIn :=
  if gainExponent b = 2047 ∧ gainFraction b ≠ 0 then .nan
  else if gainExponent b = 2047 then (if gainSign b then .negInf else .posInf)
  else if gainExponent b = 0 then
    .finite ((-1) ^ (gainSign b).toNat * gainFraction b * 2 ^ (-1074 : ℤ))
  else
    .finite ((-1) ^ (gainSign b).toNat * (2 ^ 52 + gainFraction b) * 2 ^ ((gainExponent b : ℤ) - 1075))

/-- The four Bayer patterns, in the source's order (30_encoding.md R50). -/
inductive BayerPattern where
  | rggb
  | bggr
  | grbg
  | gbrg
  deriving DecidableEq, Repr

/-- The pattern a code of SENSOR_BAYER stands for; codes 4 to 255 are "not one of the four recognized tags"
(30_encoding.md R50). -/
def BayerPattern.ofCode (code : BitVec 8) : Option BayerPattern :=
  match code.toNat with
  | 0 => some .rggb
  | 1 => some .bggr
  | 2 => some .grbg
  | 3 => some .gbrg
  | _ => none

/-- The gain selector of a pixel: the red gain, the blue gain, or none (green) (41_gain_applier.md R68). -/
inductive TileGain where
  | red
  | blue
  | none
  deriving DecidableEq, Repr

/-- `tile_gain(p, r, c)`, by the tile position (r mod 2, c mod 2) (41_gain_applier.md R67, R68; D11). -/
def tileGain (p : BayerPattern) (r c : Nat) : TileGain :=
  match p, r % 2, c % 2 with
  | .rggb, 0, 0 => .red
  | .rggb, 1, 1 => .blue
  | .bggr, 0, 0 => .blue
  | .bggr, 1, 1 => .red
  | .grbg, 0, 1 => .red
  | .grbg, 1, 0 => .blue
  | .gbrg, 0, 1 => .blue
  | .gbrg, 1, 0 => .red
  | _, _, _ => .none

end Sys2Proof.Machine
end

