-- ==== Sys2Proof/Machine/Ops.lean ====
section
/-! DEFINITION. The operations shared by the commands: the arithmetic primitives of 00_scope.md R8, the error
completion of 60_exceptions.md R100, the success completion, the draw of a free value, and the pass-through of a
disabled stage. -/

namespace Sys2Proof.Machine

/-- `x >>a n` = floor(x / 2^n), for an integer of either sign (00_scope.md R8). -/
def asr (x : Int) (n : Nat) : Int := x / 2 ^ n

/-- `clamp(x, lo, hi)`, also called `clip` (00_scope.md R8). -/
def clip (x lo hi : Int) : Int := if x < lo then lo else if hi < x then hi else x

/-- The state with STATUS.ERR written: what every command does last (10_state.md R11). -/
def State.complete (s : State) (c : Completion) : State := { s with status := setErr s.status c.code }

/-- `raise E`: STATUS.ERR is written, every other piece of state keeps its value, and the command ends
(60_exceptions.md R100). There is no handler to enter and nothing to return from (R103). -/
def State.raise (s : State) (e : Completion) : State := s.complete e

/-- A command that ends without error writes ERR = 0 (60_exceptions.md R95). -/
def State.succeed (s : State) : State := s.complete .success

/-- How many free values a quantization draws: one for a NaN, so that two quantizations of one NaN "may draw
differently" (93_implementation_defined.md U1, log 5); none for every other gain. -/
def gainDraws : GainIn → Nat
  | .nan => 1
  | .finite _ => 0
  | .posInf => 0
  | .negInf => 0

/-- The state after a quantization has drawn what it draws. -/
def State.afterQuantize (s : State) (g : GainIn) : State := { s with draws := s.draws + gainDraws g }

/-- The pass-through of a disabled stage: FOUT takes FIN's content, by value, and ERR becomes 0
(41_gain_applier.md R74, 42_matrix_converter.md R87; D20). -/
def State.passThrough (s : State) : State := { s with fout := s.fin }.succeed

end Sys2Proof.Machine
end

