-- ==== Sys2Proof/Machine/Quantizer.lean ====
section
/-! DEFINITION. Unit FPQ: `quantize`, `reconstruct`, `bitstr`, `split` (40_quantizer.md R57 to R62) and the meaning of
`QUANT` (R63). -/

namespace Sys2Proof.Machine

/-- A code and its saturation indication (40_quantizer.md R58 to R60). -/
structure Quantized where
  code : Nat
  sat : Bool
  deriving DecidableEq, Repr

/-- MAXQ = 2^(I+F) − 1, the largest code of the format (40_quantizer.md R57). -/
def maxCode (i f : Nat) : Nat := 2 ^ (i + f) - 1

/-- n = floor(x · 2^F), of an exact rational x (40_quantizer.md R58). -/
def floorScaled (x : ℚ) (f : Nat) : Int := ⌊x * 2 ^ f⌋

/-- A draw from {0, …, MAXQ}: any number, reduced to a code of the format (40_quantizer.md R60). -/
def drawnCode (i f draw : Nat) : Nat := draw % 2 ^ (i + f)

/-- `quantize(g, I, F)` (40_quantizer.md R58 to R60). `draw` is the free value a NaN takes its code from. -/
def quantize (g : GainIn) (i f draw : Nat) : Quantized :=
  match g with
  | .finite x =>
    if x < 0 then ⟨0, true⟩
    else if (maxCode i f : Int) < floorScaled x f then ⟨maxCode i f, true⟩
    else ⟨(floorScaled x f).toNat, false⟩
  | .posInf => ⟨maxCode i f, true⟩
  | .negInf => ⟨0, true⟩
  | .nan => ⟨drawnCode i f draw, true⟩

/-- `reconstruct(q, F)` = q / 2^F (40_quantizer.md R61). -/
def reconstruct (q f : Nat) : ℚ := q / 2 ^ f

/-- `bitstr(q, I, F)`: I + F characters, most significant bit first, no separator (40_quantizer.md R62; D7). -/
def bitstr (q i f : Nat) : List Char :=
  (List.range (i + f)).map fun j => if q.testBit (i + f - 1 - j) then '1' else '0'

/-- A string of '0' and '1' parsed as an unsigned binary integer (40_quantizer.md R62). -/
def parseBits (cs : List Char) : Nat := cs.foldl (fun acc ch => 2 * acc + (if ch = '1' then 1 else 0)) 0

/-- `split(q, F)` = (q >>a F, q mod 2^F): the integer part and the fractional part (40_quantizer.md R62). -/
def splitCode (q f : Nat) : Nat × Nat := (q / 2 ^ f, q % 2 ^ f)

/-- The quantization of a gain input pattern in a state, a NaN drawing the state's next free value
(10_state.md R29, 40_quantizer.md R60, log 5). -/
def State.quantizeGain (s : State) (pattern : BitVec 64) (i f : Nat) : Quantized :=
  quantize (decodeGain pattern) i f (Config.freeCode s.draws pattern i f).toNat

/-- The formats `QUANT` accepts: 1 ≤ I + F ≤ 32 (30_encoding.md R47, 40_quantizer.md R63; D6). -/
abbrev formatLegal (i f : Nat) : Prop := 1 ≤ i + f ∧ i + f ≤ Config.qMaxBits

/-- The value of Q_FMT for a format: F in [11:6], I in [5:0] (10_state.md R22, 40_quantizer.md R63). -/
def formatWord (i f : Nat) : BitVec 12 := BitVec.ofNat 6 f ++ BitVec.ofNat 6 i

/-- The writes of an error-free `QUANT` (40_quantizer.md R63). -/
def State.writeQuant (s : State) (q : Quantized) (i f : Nat) : State :=
  { s with
    qOut := BitVec.ofNat 32 q.code
    qFmt := formatWord i f
    status := setSatQ s.status q.sat }.succeed

/-- `QUANT I, F` (40_quantizer.md R63). -/
def execQuant (i f : Nat) (s : State) : Host.Outcome State Fault Refusal :=
  if formatLegal i f then
    .next ((s.afterQuantize (decodeGain s.qIn)).writeQuant (s.quantizeGain s.qIn i f) i f)
  else .next (s.raise .illegalOperation)

end Sys2Proof.Machine
end

