-- ==== Sys2Proof/Machine/GainApplier.lean ====
section
/-! DEFINITION. Unit CGA, the white-balance stage: the gained sample, the frame function and the meaning of `WBAPPLY`
(41_gain_applier.md R67 to R76). -/

namespace Sys2Proof.Machine

/-- The upper end 2^BD − 1 of a sample's range (20_memory.md R36). -/
def depthMax (bd : Nat) : Int := 2 ^ bd - 1

/-- `wb_pixel(p, q, BD)`: the exact product, shifted right by 8, clipped to [0, 2^BD − 1]
(41_gain_applier.md R70; D12, D13). -/
def wbPixel (p q bd : Nat) : Nat := (clip (asr (p * q) Config.wbF) 0 (depthMax bd)).toNat

/-- A green sample: not multiplied, clipped like every output sample (41_gain_applier.md R72; D14). -/
def wbGreen (p bd : Nat) : Nat := (clip p 0 (depthMax bd)).toNat

/-- The output sample for the input sample p of a pixel with the given gain selector (41_gain_applier.md R72). -/
def wbSample (g : TileGain) (p qr qb bd : Nat) : Nat :=
  match g with
  | .red => wbPixel p qr bd
  | .blue => wbPixel p qb bd
  | .none => wbGreen p bd

/-- `wb_frame(X, p, qr, qb, BD)` (41_gain_applier.md R72). -/
def wbFrame (x : Frame) (p : BayerPattern) (qr qb bd : Nat) : Frame :=
  Frame.build x.height x.width 1 x.container fun r c _ => wbSample (tileGain p r c) (x.sample r c 0) qr qb bd

/-- The depths an enabled `WBAPPLY` accepts: 1 to FIN.SW (10_state.md R15, 41_gain_applier.md R73; D15). -/
abbrev depthLegal (bd : Nat) (sw : Container) : Prop := 1 ≤ bd ∧ bd ≤ sw.bits

/-- The quantized red gain (41_gain_applier.md R69). -/
def State.redQuantized (s : State) : Quantized := s.quantizeGain s.wbRgainIn Config.wbI Config.wbF

/-- The quantized blue gain; it is quantized after the red one, so a NaN draws after the red one's draw
(41_gain_applier.md R69, R73). -/
def State.blueQuantized (s : State) : Quantized :=
  (s.afterQuantize (decodeGain s.wbRgainIn)).quantizeGain s.wbBgainIn Config.wbI Config.wbF

/-- The draws of both gains, in the order of 41_gain_applier.md R73. -/
def State.afterGains (s : State) : State :=
  (s.afterQuantize (decodeGain s.wbRgainIn)).afterQuantize (decodeGain s.wbBgainIn)

/-- The writes of an enabled, error-free `WBAPPLY` (41_gain_applier.md R73). -/
def State.writeGains (s : State) (qr qb : Quantized) (out : Frame) : State :=
  { s with
    wbRgainQ := BitVec.ofNat 24 qr.code
    wbBgainQ := BitVec.ofNat 24 qb.code
    status := setSatB (setSatR s.status qr.sat) qb.sat
    fout := .holds out }.succeed

/-- An enabled `WBAPPLY` on a one-channel frame with a recognised pattern (41_gain_applier.md R73). -/
def State.applyGains (s : State) (p : BayerPattern) : State :=
  if depthLegal s.sensorBitdepth.toNat s.fin.frame.container then
    s.afterGains.writeGains s.redQuantized s.blueQuantized
      (wbFrame s.fin.frame p s.redQuantized.code s.blueQuantized.code s.sensorBitdepth.toNat)
  else s.raise .illegalOperation

/-- `WBAPPLY` (41_gain_applier.md R73, R74, R76; the order of the tests is 60_exceptions.md R101). -/
def execWbapply (s : State) : Host.Outcome State Fault Refusal :=
  if s.wbCtrl = 0 then .next s.passThrough
  else if s.fin.frame.channels ≠ 1 then .next (s.raise .shapeMismatch)
  else
    match BayerPattern.ofCode s.sensorBayer with
    | none => .next (s.raise .invalidPattern)
    | some p => .next (s.applyGains p)

end Sys2Proof.Machine
end

