-- ==== Sys2Proof/Machine/MatrixConverter.lean ====
section
/-! DEFINITION. Unit MCC, the YUV to RGB stage: offset, matrix, accumulate, shift, clip, the frame function and the
meaning of `Y2R` (42_matrix_converter.md R77 to R87). -/

namespace Sys2Proof.Machine

/-- `matrix(sel)`: MATRIX_A for selector 1, MATRIX_B for every other value (42_matrix_converter.md R79). -/
def cscMatrix (sel : BitVec 8) : Triple (Triple Int) :=
  if sel = 1 then Config.matrixA else Config.matrixB

/-- The offset subtraction, in ℤ (42_matrix_converter.md R78). -/
def cscOffsetVector (y cb cr : Nat) : Triple Int :=
  ⟨y - Config.cscOffset.t0, cb - Config.cscOffset.t1, cr - Config.cscOffset.t2⟩

/-- The dot product of a matrix row with the offset vector (42_matrix_converter.md R80; D17). -/
def cscAcc (row v : Triple Int) : Int := row.t0 * v.t0 + row.t1 * v.t1 + row.t2 * v.t2

/-- One output component: the arithmetic shift, then the clip (42_matrix_converter.md R81, R83). -/
def cscOut (acc : Int) : Nat := (clip (asr acc Config.cscShift) 0 Config.cscOutMax).toNat

/-- `csc_pixel(sel, (y, cb, cr))` (42_matrix_converter.md R84). -/
def cscPixel (sel : BitVec 8) (y cb cr : Nat) : Triple Nat :=
  ⟨cscOut (cscAcc (cscMatrix sel).t0 (cscOffsetVector y cb cr)),
   cscOut (cscAcc (cscMatrix sel).t1 (cscOffsetVector y cb cr)),
   cscOut (cscAcc (cscMatrix sel).t2 (cscOffsetVector y cb cr))⟩

/-- Channel k of an output pixel: R, G, B are channels 0, 1, 2 (42_matrix_converter.md R77, R85). -/
def pixelChannel (t : Triple Nat) (k : Nat) : Nat :=
  match k with
  | 0 => t.t0
  | 1 => t.t1
  | _ => t.t2

/-- `csc_frame(X, sel)` (42_matrix_converter.md R85). -/
def cscFrame (x : Frame) (sel : BitVec 8) : Frame :=
  Frame.build x.height x.width 3 .w8 fun r c k =>
    pixelChannel (cscPixel sel (x.sample r c 0) (x.sample r c 1) (x.sample r c 2)) k

/-- The shape an enabled `Y2R` accepts (42_matrix_converter.md R77; D28). -/
abbrev cscShape (x : Frame) : Prop := x.channels = 3 ∧ x.container = .w8

/-- `Y2R` (42_matrix_converter.md R86, R87). -/
def execY2r (s : State) : Host.Outcome State Fault Refusal :=
  if s.cscCtrl = 0 then .next s.passThrough
  else if cscShape s.fin.frame then .next { s with fout := .holds (cscFrame s.fin.frame s.cscStd) }.succeed
  else .next (s.raise .shapeMismatch)

end Sys2Proof.Machine
end

