-- ==== Sys2Proof/Machine/Dispatch.lean ====
section
/-! DEFINITION. One arm per command. -/

namespace Sys2Proof.Machine

def exec (i : Instr) (s : State) : Host.Outcome State Fault Refusal :=
  match i with
  | .quant ibits fbits => Sys2Proof.Machine.execQuant ibits fbits s
  | .wbapply => Sys2Proof.Machine.execWbapply s
  | .y2r => Sys2Proof.Machine.execY2r s

end Sys2Proof.Machine
end

