-- ==== Sys2Proof/Machine/HostPort.lean ====
section
/-! DEFINITION. The host port: the four transactions (43_host_port.md R88 to R93) and the external reset
(70_reset_and_hazards.md R107). -/

namespace Sys2Proof.Machine

/-- `execute(decode(v[31:0]))`: a command is executed in full; an illegal word raises IllegalOperation
(30_encoding.md R49, R56, 43_host_port.md R93). -/
def commandWrite (v : HostValue) (s : State) : Host.Outcome State Fault Refusal :=
  match decode (commandWord v) with
  | .command i => exec i s
  | .illegal _ => .next (s.raise .illegalOperation)

/-- `RegWrite(n, v)` (43_host_port.md R89). -/
def regWrite (n : RegNumber) (v : HostValue) (s : State) : Host.Outcome State Fault Refusal :=
  match RegName.ofNumber n with
  | some .cmd => commandWrite v s
  | some r => .next (s.writeReg r v)
  | none => .next s

/-- The value `RegRead(n)` returns: 0 for CMD and for an unimplemented number (43_host_port.md R90). -/
def State.regValue (s : State) (n : RegNumber) : HostValue :=
  match RegName.ofNumber n with
  | some r => s.readReg r
  | none => 0

/-- The host receives a returned value; the block is unchanged (43_host_port.md R90, R92). -/
def State.returns (s : State) (r : Returned) : State :=
  { s with host := { s.host with returned := s.host.returned ++ [r] } }

/-- `RegRead(n)` (43_host_port.md R90). -/
def regRead (n : RegNumber) (s : State) : Host.Outcome State Fault Refusal :=
  .next (s.returns (.value (s.regValue n)))

/-- `HostLoadFrame(f)`: FIN is replaced whole, nothing else changes (43_host_port.md R91). -/
def hostLoadFrame (f : Frame.Legal) (s : State) : Host.Outcome State Fault Refusal :=
  .next { s with fin := .holds f.val }

/-- `HostReadFrame()`: the whole of FOUT is returned, nothing changes (43_host_port.md R92). -/
def hostReadFrame (s : State) : Host.Outcome State Fault Refusal :=
  .next (s.returns (.frame s.fout))

/-- One transaction, to completion (43_host_port.md R88). -/
def perform (t : Transaction) (s : State) : Host.Outcome State Fault Refusal :=
  match t with
  | .regWrite n v => regWrite n v s
  | .regRead n => regRead n s
  | .loadFrame f => hostLoadFrame f s
  | .readFrame => hostReadFrame s

/-- A transaction leaves the head of the host program, and the index advances by exactly one (10_state.md R24). -/
def State.accept (s : State) (rest : List HostEvent) : State :=
  { s with host := { s.host with pending := rest, index := s.host.index + 1 } }

/-- The external reset: every register at its reset value, FIN and FOUT unspecified anew; the host's side is outside
the block and keeps its place (70_reset_and_hazards.md R107, log 9). -/
def State.externalReset (s : State) (rest : List HostEvent) : State :=
  { State.reset with
    fin := .unspecified s.draws
    fout := .unspecified (s.draws + 1)
    draws := s.draws + 2
    host := { s.host with pending := rest } }

end Sys2Proof.Machine
end

