-- ==== Sys2Proof/Machine/Step.lean ====
section
/-! DEFINITION. The step: the next event of the host's side, performed whole (43_host_port.md R88, R93). -/

namespace Sys2Proof.Machine

/-- One step. With a transaction pending it is performed to completion and the index advances by one (10_state.md R24,
43_host_port.md R88); a pending reset is applied (70_reset_and_hazards.md R107); with nothing pending the block is
idle and executes nothing (R108, log 1). -/
def step (s : State) : Host.Outcome State Fault Refusal :=
  match s.host.pending with
  | [] => .next s
  | .transaction t :: rest => perform t (s.accept rest)
  | .reset :: rest => .next (s.externalReset rest)

/-- s with the write of a table word to CMD as the host's next transaction: the block fetches nothing, "the order of
commands is the order of the host's writes to CMD" (10_state.md R24, log 2). -/
def State.withFetchWord (s : State) (nbits w : Nat) : State :=
  { s with host := { s.host with
      pending := .transaction (.regWrite RegName.cmd.number (tableValue nbits w)) :: s.host.pending } }

end Sys2Proof.Machine
end

