-- ==== Sys2Proof/Machine/Script.lean ====
section
/-! DEFINITION. The notation of host programs: mnemonics, the pseudo-instruction, the script lines and the decimal
real of a gain (30_encoding.md R53, R54, R55). -/

namespace Sys2Proof.Machine

/-- A command as it is written: its mnemonic, upper case, then its operands in decimal (30_encoding.md R53). -/
def asmText : Instr → String
  | .quant i f => "QUANT " ++ toString i ++ ", " ++ toString f
  | .wbapply => "WBAPPLY"
  | .y2r => "Y2R"

/-- The pseudo-instruction `QUANT.U16_8` expands to `QUANT 16, 8` (30_encoding.md R54). -/
def quantU16F8 : Instr := .quant Config.wbI Config.wbF

/-- The integer nearest to x ≥ 0, ties to even (30_encoding.md R55). -/
def roundHalfEven (x : ℚ) : Nat :=
  let n := ⌊x⌋.toNat
  if x - n < 1 / 2 then n
  else if 1 / 2 < x - n then n + 1
  else if n % 2 = 0 then n else n + 1

/-- floor(log2 x) of a rational x > 0. -/
def binaryExponent (x : ℚ) : ℤ :=
  let e : ℤ := (Nat.log2 x.num.toNat : ℤ) - Nat.log2 x.den
  if x < 2 ^ e then e - 1 else e

/-- The exponent and fraction fields of the binary64 nearest to x > 0, as one number; past the largest finite value it
is the pattern of infinity (93_implementation_defined.md K1, K5; overflow to infinity is PRESUMED, log 15). -/
def nearestMagnitude (x : ℚ) : Nat :=
  let p : ℤ := max (binaryExponent x) (-1022)
  min ((p + 1022).toNat * 2 ^ 52 + roundHalfEven (x * 2 ^ (52 - p))) (2047 * 2 ^ 52)

/-- The binary64 pattern a decimal real stands for in a script: the nearest one, ties to even (30_encoding.md R55).
Where zero is nearest, both zeros are, and the spec names neither: DESIGN CHOICE (log 17), the real 0 and a positive
real too small for any other pattern give positive zero, a negative real too small gives negative zero. -/
def nearestBinary64 (x : ℚ) : BitVec 64 :=
  if x = 0 then 0
  else if x < 0 then BitVec.ofNat 64 (2 ^ 63 + nearestMagnitude (-x))
  else BitVec.ofNat 64 (nearestMagnitude x)

/-- A line of a host program (30_encoding.md R55). A register is given by its number, so that the unimplemented ones
can be written too (95_test_vectors.md H11). -/
inductive ScriptLine where
  /-- `WR <register>, <value>`, the value in hex. -/
  | wr (n : RegNumber) (v : HostValue)
  /-- `WR <register>, <value>`, the value a decimal real for a gain register. -/
  | wrReal (n : RegNumber) (x : ℚ)
  /-- `RD <register>`. -/
  | rd (n : RegNumber)
  /-- `LOADF <frame>`. -/
  | loadf (f : Frame.Legal)
  /-- `READF`. -/
  | readf
  /-- `CMD <mnemonic and operands>`. -/
  | cmd (i : Instr)
  deriving DecidableEq, Repr

/-- The value written to CMD for a command: its word (30_encoding.md R55). -/
def commandValue (i : Instr) : HostValue := (encode i).setWidth 64

/-- The transaction a script line stands for (30_encoding.md R55). -/
def ScriptLine.toTransaction : ScriptLine → Transaction
  | .wr n v => .regWrite n v
  | .wrReal n x => .regWrite n (nearestBinary64 x)
  | .rd n => .regRead n
  | .loadf f => .loadFrame f
  | .readf => .readFrame
  | .cmd i => .regWrite RegName.cmd.number (commandValue i)

/-- The state with a host program pending after what is pending already (43_host_port.md R88, log 2). -/
def State.withScript (s : State) (lines : List ScriptLine) : State :=
  { s with host := { s.host with
      pending := s.host.pending ++ lines.map fun l => .transaction l.toTransaction } }

end Sys2Proof.Machine
end

