-- ==== Sys2Proof/Safety.lean ====
section
/-! DEFINITION. What the claims call a legal state, what each command reads and writes, and the host's RW registers. -/

namespace Sys2Proof.Machine

/-- STATUS as 10_state.md R11 leaves it: bits [7:6] are 0, and ERR is 0, 1, 3 or 4 ("2, 5, 6, 7 never written"). -/
abbrev statusLegal (st : BitVec 8) : Prop :=
  statusReserved st = 0 ∧ (statusErr st = 0 ∨ statusErr st = 1 ∨ statusErr st = 3 ∨ statusErr st = 4)

/-- The count I held in Q_FMT, bits [5:0] (10_state.md R22). -/
def formatI (fmt : BitVec 12) : Nat := (fmt.extractLsb' 0 6).toNat

/-- The count F held in Q_FMT, bits [11:6] (10_state.md R22). -/
def formatF (fmt : BitVec 12) : Nat := (fmt.extractLsb' 6 6).toNat

/-- Q_OUT and Q_FMT agree: no `QUANT` has completed and both are 0, or Q_FMT holds a format of a `QUANT` and bits
[31:I+F] of Q_OUT are 0 (10_state.md R21, R22). -/
abbrev resultLegal (out : BitVec 32) (fmt : BitVec 12) : Prop :=
  (fmt = 0 ∧ out = 0) ∨
    (formatLegal (formatI fmt) (formatF fmt) ∧ out.toNat < 2 ^ (formatI fmt + formatF fmt))

/-- A returned value is legal when a returned frame is a Frame of 20_memory.md R31. -/
def Returned.wf : Returned → Bool
  | .value _ => true
  | .frame m => m.wf

/-- The invariant of the machine: both frame memories and every frame handed to the host are Frames of 20_memory.md
R31, STATUS holds only what 10_state.md R11 says is written, and Q_OUT and Q_FMT agree (R21, R22). -/
structure State.Inv (s : State) : Prop where
  fin : s.fin.wf = true
  fout : s.fout.wf = true
  returned : s.host.returned.all Returned.wf = true
  status : statusLegal s.status
  result : resultLegal s.qOut s.qFmt

/-- How many of the pending events are transactions: a reset is none (43_host_port.md R88). -/
def transactionCount : List HostEvent → Nat
  | [] => 0
  | .transaction _ :: rest => transactionCount rest + 1
  | .reset :: rest => transactionCount rest

/-- Every sample of a frame is within the range of the bit depth, [0, 2^BD − 1] (20_memory.md R36). -/
def Frame.withinDepth (f : Frame) (bd : Nat) : Prop :=
  ∀ r c k, f.inside r c k → f.sample r c k ≤ 2 ^ bd - 1

/-- What a command reads (40_quantizer.md R63, 41_gain_applier.md R73, 42_matrix_converter.md R86), and the number of
the model's next draw: equal in the two states. -/
def sameReads (i : Instr) (s s' : State) : Prop :=
  s'.draws = s.draws ∧
  match i with
  | .quant _ _ => s'.qIn = s.qIn
  | .wbapply =>
    s'.wbCtrl = s.wbCtrl ∧ s'.sensorBayer = s.sensorBayer ∧ s'.sensorBitdepth = s.sensorBitdepth ∧
    s'.wbRgainIn = s.wbRgainIn ∧ s'.wbBgainIn = s.wbBgainIn ∧ s'.fin.frame = s.fin.frame
  | .y2r => s'.cscCtrl = s.cscCtrl ∧ s'.cscStd = s.cscStd ∧ s'.fin.frame = s.fin.frame

/-- What a command writes (same rules), equal in the two states. -/
def sameWrites (i : Instr) (s t t' : State) : Prop :=
  match i with
  | .quant _ _ => t'.qOut = t.qOut ∧ t'.qFmt = t.qFmt ∧ statusSatQ t'.status = statusSatQ t.status
  | .wbapply =>
    t'.fout.frame = t.fout.frame ∧
    (s.wbCtrl ≠ 0 → t'.wbRgainQ = t.wbRgainQ ∧ t'.wbBgainQ = t.wbBgainQ ∧
      statusSatR t'.status = statusSatR t.status ∧ statusSatB t'.status = statusSatB t.status)
  | .y2r => t'.fout.frame = t.fout.frame

/-- The RW registers and their widths (10_state.md R10). -/
def rwWidth (n : RegNumber) : Option Nat :=
  if n = 0x02 then some 1 else if n = 0x03 then some 8 else if n = 0x04 then some 5
  else if n = 0x05 then some 64 else if n = 0x06 then some 64 else if n = 0x09 then some 1
  else if n = 0x0A then some 8 else if n = 0x0B then some 64 else none

end Sys2Proof.Machine
end

