-- ==== Sys2Proof/Certificates/Slice0/Obligations.lean ====
section
/-! DEFINITION. The statements for the provers. Each docstring names the rule of spec/ it formalises and, where the rule
marks a choice of the spec as a decision, the row of 92_eei_decisions.md; a clause that rests on the model's own choice
names the log entry. -/

open Sys2Proof Sys2Proof.Machine

/-! ## Encoding -/

/-- The worked encodings of 30_encoding.md R48, and the nearest accepted and refused neighbours of 95_test_vectors.md
2.1 and 2.4, read by the decoder. The spec says of the last three words only that they are illegal (R49); the names of
rejection they get here are the model's choice (log 12). -/
def Obligations.WorkedEncodingsDecode : Prop :=
  decode 0x00021001 = .command (.quant 16 8) ∧ decode 0x00008201 = .command (.quant 2 2) ∧
  decode 0x00010001 = .command (.quant 0 4) ∧ decode 0x00000401 = .command (.quant 4 0) ∧
  decode 0x00002001 = .command (.quant 32 0) ∧ decode 0x00000002 = .command .wbapply ∧
  decode 0x00000003 = .command .y2r ∧ decode 0x00045001 = .command (.quant 16 17) ∧
  decode 0x00121001 = .illegal .zeroFieldSet ∧ decode 0x00000102 = .illegal .operandFieldSet ∧
  decode 0x00000004 = .illegal .unknownOpcode

/-- 30_encoding.md R56 (D9, D22): the decoder by mask and match, total on words; an illegal word raises
IllegalOperation: STATUS.ERR becomes 4 and nothing else changes. -/
def Obligations.DecoderFollowsOpcodeMap : Prop :=
  (∀ w : CmdWord,
    (w &&& 0xFFF000FF = 0x00000001 →
      decode w = .command (.quant (w.extractLsb' 8 6).toNat (w.extractLsb' 14 6).toNat)) ∧
    (w = 0x00000002 → decode w = .command .wbapply) ∧
    (w = 0x00000003 → decode w = .command .y2r) ∧
    (w &&& 0xFFF000FF ≠ 0x00000001 → w ≠ 0x00000002 → w ≠ 0x00000003 → ∃ why, decode w = .illegal why)) ∧
  (∀ (v : HostValue) (why : Illegal) (s : State), decode (v.extractLsb' 0 32) = .illegal why →
    commandWrite v s = .next { s with status := setErr s.status 4 })

/-- 30_encoding.md R49 (D22): which words are illegal, that writing one to CMD ends with IllegalOperation and changes
nothing else of the block (the transaction leaves the host program and its index advances), and that a `QUANT` word of
an illegal format is a legal encoding whose execution has the same effect. -/
def Obligations.IllegalWordsEndWithIllegalOperation : Prop :=
  (∀ w : CmdWord, (∃ why, decode w = .illegal why) ↔
    ((w.extractLsb' 0 8).toNat = 0 ∨ 4 ≤ (w.extractLsb' 0 8).toNat ∨ w.extractLsb' 20 12 ≠ 0 ∨
      (2 ≤ (w.extractLsb' 0 8).toNat ∧ w.extractLsb' 8 12 ≠ 0))) ∧
  (∀ (s : State) (v : HostValue) (rest : List HostEvent) (why : Illegal),
    s.host.pending = .transaction (.regWrite 0x01 v) :: rest → decode (v.extractLsb' 0 32) = .illegal why →
    step s = .next { s with
      status := setErr s.status 4
      host := { s.host with pending := rest, index := s.host.index + 1 } }) ∧
  (∀ (i f : Nat) (s : State), i ≤ 63 → f ≤ 63 → (i + f = 0 ∨ 32 < i + f) →
    decode (encode (.quant i f)) = .command (.quant i f) ∧
    exec (.quant i f) s = .next { s with status := setErr s.status 4 })

/-- Every well-formed instruction is read back from its word, with every operand at every value its field admits
(30_encoding.md R45, R47, R48). -/
def Obligations.DecodeOfEncode : Prop :=
  ∀ i : Instr, i.wf = true → decode (encode i) = .command i

/-- Each legal word has one meaning: a word that decodes to a command is that command's own word, and the command is
well formed (30_encoding.md R48, R49). -/
def Obligations.EncodeOfDecode : Prop :=
  ∀ (w : CmdWord) (i : Instr), decode w = .command i → i.wf = true ∧ encode i = w

/-! ## The quantizer -/

/-- 10_state.md R29 (D2): the binary64 decode, exact, case by case; both zeros decode to Finite(0). -/
def Obligations.GainDecodeIsBinary64 : Prop :=
  (∀ b : BitVec 64, (b.extractLsb' 52 11).toNat = 2047 → b.extractLsb' 0 52 ≠ 0 → decodeGain b = .nan) ∧
  (∀ b : BitVec 64, (b.extractLsb' 52 11).toNat = 2047 → b.extractLsb' 0 52 = 0 →
    decodeGain b = if b.getLsbD 63 = false then .posInf else .negInf) ∧
  (∀ b : BitVec 64, (b.extractLsb' 52 11).toNat = 0 →
    decodeGain b = .finite ((if b.getLsbD 63 then -1 else 1) * ((b.extractLsb' 0 52).toNat : ℚ) / 2 ^ 1074)) ∧
  (∀ b : BitVec 64, 0 < (b.extractLsb' 52 11).toNat → (b.extractLsb' 52 11).toNat < 2047 →
    decodeGain b = .finite ((if b.getLsbD 63 then -1 else 1) * ((2 : ℚ) ^ 52 + (b.extractLsb' 0 52).toNat) *
      2 ^ (b.extractLsb' 52 11).toNat / 2 ^ 1075)) ∧
  decodeGain 0x0000000000000000 = .finite 0 ∧ decodeGain 0x8000000000000000 = .finite 0

/-- 40_quantizer.md R58: a finite gain below 2^I quantizes to the floor, without saturation. -/
def Obligations.InRangeGainQuantizesToFloor : Prop :=
  ∀ (x : ℚ) (i f draw : Nat), 0 ≤ x → x < 2 ^ i →
    ((quantize (.finite x) i f draw).code : ℤ) = ⌊x * 2 ^ f⌋ ∧ (quantize (.finite x) i f draw).sat = false

/-- 40_quantizer.md R59 (D5): a finite gain of 2^I or more gives MAXQ with saturation, exactly when the floor exceeds
MAXQ; a gain in the last step below 2^I gives MAXQ without saturation. -/
def Obligations.LargeGainClampsToMaxCode : Prop :=
  ∀ (x : ℚ) (i f draw : Nat), 0 ≤ x →
    (2 ^ i ≤ x ↔ ((2 ^ (i + f) - 1 : Nat) : ℤ) < ⌊x * 2 ^ f⌋) ∧
    (2 ^ i ≤ x → quantize (.finite x) i f draw = ⟨2 ^ (i + f) - 1, true⟩) ∧
    (2 ^ i - 1 / 2 ^ f ≤ x → x < 2 ^ i → quantize (.finite x) i f draw = ⟨2 ^ (i + f) - 1, false⟩)

/-- 40_quantizer.md R60 (D3, D4): gains outside the domain clamp and never raise; a NaN gives a code of the format and
no more is fixed (every code of the format is some draw's), with saturation. -/
def Obligations.OutOfDomainGainClamps : Prop :=
  ∀ i f : Nat, 1 ≤ i + f → i + f ≤ 32 →
    (∀ (x : ℚ) (draw : Nat), x < 0 → quantize (.finite x) i f draw = ⟨0, true⟩) ∧
    (∀ draw, quantize .negInf i f draw = ⟨0, true⟩) ∧
    (∀ draw, quantize .posInf i f draw = ⟨2 ^ (i + f) - 1, true⟩) ∧
    (∀ draw, (quantize .nan i f draw).code ≤ 2 ^ (i + f) - 1 ∧ (quantize .nan i f draw).sat = true) ∧
    (∀ q, q ≤ 2 ^ (i + f) - 1 → ∃ draw, draw < 2 ^ 32 ∧ quantize .nan i f draw = ⟨q, true⟩)

/-- 40_quantizer.md R64 (its last sentence is marked "[derived: from rule R58]"): the floor property of the quantizer,
and a representable value is its own quantization. -/
def Obligations.QuantizerFloorProperty : Prop :=
  (∀ (x : ℚ) (i f draw : Nat), 0 ≤ x → x < 2 ^ i →
    reconstruct (quantize (.finite x) i f draw).code f ≤ x ∧
    x - reconstruct (quantize (.finite x) i f draw).code f < 1 / 2 ^ f ∧
    (quantize (.finite x) i f draw).sat = false) ∧
  (∀ q i f draw : Nat, q < 2 ^ (i + f) → quantize (.finite (reconstruct q f)) i f draw = ⟨q, false⟩)

/-- 40_quantizer.md R65: `quantize` answers a code of the format for every gain and format, and `QUANT` always
completes: its only error is the illegal format, whatever the gain. -/
def Obligations.QuantizeIsTotal : Prop :=
  (∀ (g : GainIn) (i f draw : Nat), (quantize g i f draw).code ≤ 2 ^ (i + f) - 1) ∧
  (∀ (i f : Nat) (s : State), ∃ t, exec (.quant i f) s = .next t ∧
    statusErr t.status = if 1 ≤ i + f ∧ i + f ≤ 32 then 0 else 4)

/-- 40_quantizer.md R62 (D7): the bit string of a code, most significant bit first, split at I, parsed back. -/
def Obligations.BitStringRoundTrip : Prop :=
  ∀ q i f : Nat, q < 2 ^ (i + f) →
    (bitstr q i f).length = i + f ∧
    (∀ j, j < i + f → (bitstr q i f)[j]? = some (if q.testBit (i + f - 1 - j) then '1' else '0')) ∧
    parseBits (bitstr q i f) = q ∧
    parseBits ((bitstr q i f).take i) = (splitCode q f).1 ∧
    parseBits ((bitstr q i f).drop i) = (splitCode q f).2 ∧
    splitCode q f = (q >>> f, q % 2 ^ f) ∧
    reconstruct q f = (parseBits (bitstr q i f) : ℚ) / 2 ^ f

/-- 40_quantizer.md R66: gain 0 encodes as all-zero bits, and both binary64 zeros are gain 0. -/
def Obligations.ZeroGainIsAllZeroBits : Prop :=
  (∀ i f draw : Nat, quantize (.finite 0) i f draw = ⟨0, false⟩ ∧ bitstr 0 i f = List.replicate (i + f) '0') ∧
  (∀ b : BitVec 64, b = 0x0000000000000000 ∨ b = 0x8000000000000000 → decodeGain b = .finite 0)

/-- 40_quantizer.md R63: for every format with 1 ≤ I + F ≤ 32 and every state `QUANT` completes; the registers it
writes, read back, and everything else unchanged. The NaN draw is the free value of log 5; `draws` is the model's own
(log 6) and is left open. For an illegal format only STATUS.ERR is written. -/
def Obligations.QuantResult : Prop :=
  (∀ (i f : Nat) (s : State), 1 ≤ i + f → i + f ≤ 32 →
    ∃ t q, exec (.quant i f) s = .next t ∧
      q = quantize (decodeGain s.qIn) i f (Config.freeCode s.draws s.qIn i f).toNat ∧
      t.qOut.toNat = q.code ∧
      (t.qFmt.extractLsb' 0 6).toNat = i ∧ (t.qFmt.extractLsb' 6 6).toNat = f ∧
      statusSatQ t.status = q.sat ∧ statusErr t.status = 0 ∧
      statusSatR t.status = statusSatR s.status ∧ statusSatB t.status = statusSatB s.status ∧
      statusReserved t.status = statusReserved s.status ∧
      t = { s with qOut := t.qOut, qFmt := t.qFmt, status := t.status, draws := t.draws }) ∧
  (∀ (i f : Nat) (s : State), (i + f = 0 ∨ 32 < i + f) →
    exec (.quant i f) s = .next { s with status := setErr s.status 4 })

/-- 40_quantizer.md R63, corner case: Q_IN is not changed, so a second `QUANT` of the same format leaves the state as
the first did, unless Q_IN holds a NaN. -/
def Obligations.QuantTwiceIsQuantOnce : Prop :=
  ∀ (i f : Nat) (s t : State), decodeGain s.qIn ≠ .nan → exec (.quant i f) s = .next t →
    exec (.quant i f) t = .next t

/-! ## The gain applier -/

/-- 41_gain_applier.md R67 and R68 (D11, "from general knowledge" beyond `rggb`), with the codes of 30_encoding.md R50:
the gain selector of a pixel by pattern and tile position, and that in every pattern one tile position is red, one is
blue and two are neither. -/
def Obligations.BayerTileTable : Prop :=
  BayerPattern.ofCode 0 = some .rggb ∧ BayerPattern.ofCode 1 = some .bggr ∧
  BayerPattern.ofCode 2 = some .grbg ∧ BayerPattern.ofCode 3 = some .gbrg ∧
  (∀ code : BitVec 8, 4 ≤ code.toNat → BayerPattern.ofCode code = none) ∧
  (∀ r c : Nat,
    tileGain .rggb (2 * r) (2 * c) = .red ∧ tileGain .rggb (2 * r) (2 * c + 1) = .none ∧
    tileGain .rggb (2 * r + 1) (2 * c) = .none ∧ tileGain .rggb (2 * r + 1) (2 * c + 1) = .blue ∧
    tileGain .bggr (2 * r) (2 * c) = .blue ∧ tileGain .bggr (2 * r) (2 * c + 1) = .none ∧
    tileGain .bggr (2 * r + 1) (2 * c) = .none ∧ tileGain .bggr (2 * r + 1) (2 * c + 1) = .red ∧
    tileGain .grbg (2 * r) (2 * c) = .none ∧ tileGain .grbg (2 * r) (2 * c + 1) = .red ∧
    tileGain .grbg (2 * r + 1) (2 * c) = .blue ∧ tileGain .grbg (2 * r + 1) (2 * c + 1) = .none ∧
    tileGain .gbrg (2 * r) (2 * c) = .none ∧ tileGain .gbrg (2 * r) (2 * c + 1) = .blue ∧
    tileGain .gbrg (2 * r + 1) (2 * c) = .red ∧ tileGain .gbrg (2 * r + 1) (2 * c + 1) = .none) ∧
  (∀ p : BayerPattern,
    (([(0, 0), (0, 1), (1, 0), (1, 1)].filter fun t => tileGain p t.1 t.2 = .red).length = 1) ∧
    (([(0, 0), (0, 1), (1, 0), (1, 1)].filter fun t => tileGain p t.1 t.2 = .blue).length = 1))

/-- 41_gain_applier.md R70 (D12): a gained sample is the floor of the real product clipped to [0, 2^BD − 1], which is
the clip of the floor, since both limits are integers; the lower limit never acts; a sample at the maximum with a gain
above 1 stays at the maximum, never wraps. -/
def Obligations.GainedSampleIsClippedFloor : Prop :=
  (∀ p q bd : Nat, wbPixel p q bd = min (p * q / 2 ^ 8) (2 ^ bd - 1)) ∧
  (∀ p q bd : Nat, (wbPixel p q bd : ℤ) = ⌊min ((p : ℚ) * (q / 256)) (2 ^ bd - 1)⌋) ∧
  (∀ q bd : Nat, 256 < q → wbPixel (2 ^ bd - 1) q bd = 2 ^ bd - 1)

/-- 41_gain_applier.md R71 (marked "[derived: from rule R70]" and a decision, D13): the codes `WBAPPLY` applies have at
most 24 bits, so the product of a 16-bit sample fits 40 bits and the shifted product 32. -/
def Obligations.GainProductFitsFortyBits : Prop :=
  (∀ s : State, s.redQuantized.code < 2 ^ 24 ∧ s.blueQuantized.code < 2 ^ 24) ∧
  (∀ p q : Nat, p < 2 ^ 16 → q < 2 ^ 24 → p * q < 2 ^ 40 ∧ p * q / 2 ^ 8 < 2 ^ 32)

/-- 41_gain_applier.md R72 (D14): the frame function, its descriptor and every sample of it, red, blue and green; a
green sample within the range is unchanged; outside the descriptor there is no sample. -/
def Obligations.GainFrameSamples : Prop :=
  ∀ (x : Frame) (p : BayerPattern) (qr qb bd : Nat), x.channels = 1 →
    (wbFrame x p qr qb bd).height = x.height ∧ (wbFrame x p qr qb bd).width = x.width ∧
    (wbFrame x p qr qb bd).channels = 1 ∧ (wbFrame x p qr qb bd).container = x.container ∧
    (∀ r c, r < x.height → c < x.width →
      (tileGain p r c = .red → (wbFrame x p qr qb bd).sample? r c 0 = some (wbPixel (x.sample r c 0) qr bd)) ∧
      (tileGain p r c = .blue → (wbFrame x p qr qb bd).sample? r c 0 = some (wbPixel (x.sample r c 0) qb bd)) ∧
      (tileGain p r c = .none →
        (wbFrame x p qr qb bd).sample? r c 0 = some (min (x.sample r c 0) (2 ^ bd - 1)))) ∧
    (∀ r c, r < x.height → c < x.width → tileGain p r c = .none → x.sample r c 0 ≤ 2 ^ bd - 1 →
      (wbFrame x p qr qb bd).sample r c 0 = x.sample r c 0) ∧
    (∀ r c k, ¬(r < x.height ∧ c < x.width ∧ k < 1) → (wbFrame x p qr qb bd).sample? r c k = none)

/-- 41_gain_applier.md R73 and R69: an enabled `WBAPPLY` on a one-channel frame, with a recognised pattern and a bit
depth of 1 to FIN.SW, completes for every gain input: both gains freshly quantized to U16.8, FOUT the frame of R72, ERR
0, everything else unchanged. The NaN draws are free values (log 5); `draws` is the model's own and left open. -/
def Obligations.WbapplyResult : Prop :=
  ∀ (s : State) (p : BayerPattern), s.wbCtrl = 1 → s.fin.frame.channels = 1 →
    BayerPattern.ofCode s.sensorBayer = some p → 1 ≤ s.sensorBitdepth.toNat →
    s.sensorBitdepth.toNat ≤ s.fin.frame.container.bits →
    ∃ t qr qb, exec .wbapply s = .next t ∧
      qr = quantize (decodeGain s.wbRgainIn) 16 8 (Config.freeCode s.draws s.wbRgainIn 16 8).toNat ∧
      (∃ n, qb = quantize (decodeGain s.wbBgainIn) 16 8 (Config.freeCode n s.wbBgainIn 16 8).toNat ∧
        (decodeGain s.wbRgainIn = .nan → n ≠ s.draws)) ∧
      t.wbRgainQ.toNat = qr.code ∧ t.wbBgainQ.toNat = qb.code ∧
      statusSatR t.status = qr.sat ∧ statusSatB t.status = qb.sat ∧ statusErr t.status = 0 ∧
      statusSatQ t.status = statusSatQ s.status ∧ statusReserved t.status = statusReserved s.status ∧
      t.fout.frame = wbFrame s.fin.frame p qr.code qb.code s.sensorBitdepth.toNat ∧
      t = { s with
        wbRgainQ := t.wbRgainQ, wbBgainQ := t.wbBgainQ, fout := t.fout, status := t.status, draws := t.draws }

/-- 41_gain_applier.md R74 (D20, D34): a disabled `WBAPPLY` copies FIN to FOUT, whatever FIN's shape and the other
registers, raises nothing, quantizes nothing and writes ERR = 0. -/
def Obligations.DisabledWbapplyPassesThrough : Prop :=
  ∀ s : State, s.wbCtrl = 0 →
    ∃ t, exec .wbapply s = .next t ∧ t.fout.frame = s.fin.frame ∧ statusErr t.status = 0 ∧
      statusSatR t.status = statusSatR s.status ∧ statusSatB t.status = statusSatB s.status ∧
      statusSatQ t.status = statusSatQ s.status ∧ statusReserved t.status = statusReserved s.status ∧
      t = { s with fout := t.fout, status := t.status }

/-- 41_gain_applier.md R73, corner case "gain 1.0 (code 0x000100) leaves every in-range sample of its lattice
unchanged", on both lattices and with the green samples of R72: the output frame is the input frame. -/
def Obligations.UnitGainsLeaveFrameUnchanged : Prop :=
  ∀ (s : State) (p : BayerPattern), s.wbCtrl = 1 → s.fin.wf = true → s.fin.frame.channels = 1 →
    BayerPattern.ofCode s.sensorBayer = some p → 1 ≤ s.sensorBitdepth.toNat →
    s.sensorBitdepth.toNat ≤ s.fin.frame.container.bits →
    s.fin.frame.withinDepth s.sensorBitdepth.toNat →
    s.wbRgainIn = 0x3FF0000000000000 → s.wbBgainIn = 0x3FF0000000000000 →
    ∃ t, exec .wbapply s = .next t ∧ t.fout.frame = s.fin.frame ∧ t.wbRgainQ = 0x000100 ∧ t.wbBgainQ = 0x000100 ∧
      statusErr t.status = 0

/-- 20_memory.md R35 and R36: after an enabled, error-free `WBAPPLY` FOUT has FIN's dimensions and every sample of it
is within [0, 2^BD − 1], whatever FIN's samples and the gains are. -/
def Obligations.WbapplyOutputWithinDepth : Prop :=
  ∀ s t : State, s.wbCtrl = 1 → exec .wbapply s = .next t → statusErr t.status = 0 →
    t.fout.frame.withinDepth s.sensorBitdepth.toNat ∧
    t.fout.frame.height = s.fin.frame.height ∧ t.fout.frame.width = s.fin.frame.width ∧
    t.fout.frame.channels = 1 ∧ t.fout.frame.container = s.fin.frame.container

/-! ## The matrix converter -/

/-- 42_matrix_converter.md R84 (with R78, R79, R80, R81, R83; D17): the pixel function with the literals written out,
for selector 1 and for every other selector, and the black offset. -/
def Obligations.MatrixPixelFormula : Prop :=
  (∀ y cb cr : Nat, cscPixel 1 y cb cr =
    ⟨(max 0 (min 255 ((74 * ((y : ℤ) - 16) + 114 * ((cr : ℤ) - 128)) / 64))).toNat,
     (max 0 (min 255 ((74 * ((y : ℤ) - 16) - 13 * ((cb : ℤ) - 128) - 34 * ((cr : ℤ) - 128)) / 64))).toNat,
     (max 0 (min 255 ((74 * ((y : ℤ) - 16) + 135 * ((cb : ℤ) - 128)) / 64))).toNat⟩) ∧
  (∀ (sel : BitVec 8) (y cb cr : Nat), sel ≠ 1 → cscPixel sel y cb cr =
    ⟨(max 0 (min 255 ((64 * ((y : ℤ) - 16) + 87 * ((cb : ℤ) - 128)) / 64))).toNat,
     (max 0 (min 255 ((64 * ((y : ℤ) - 16) - 44 * ((cb : ℤ) - 128) - 20 * ((cr : ℤ) - 128)) / 64))).toNat,
     (max 0 (min 255 ((61 * ((y : ℤ) - 16) + 105 * ((cr : ℤ) - 128)) / 64))).toNat⟩) ∧
  (∀ sel : BitVec 8, cscPixel sel 16 128 128 = ⟨0, 0, 0⟩)

/-- 42_matrix_converter.md R82 (marked "[derived: from rules R78 to R81 ...]"): the accumulators of both matrices, row
by row, over all 8-bit inputs, and the shifted values; a signed accumulator of 17 bits never overflows. -/
def Obligations.AccumulatorBounds : Prop :=
  ∀ y cb cr : Nat, y ≤ 255 → cb ≤ 255 → cr ≤ 255 → ∀ v, v = cscOffsetVector y cb cr →
    (-15776 ≤ cscAcc Config.matrixA.t0 v ∧ cscAcc Config.matrixA.t0 v ≤ 32164) ∧
    (-7153 ≤ cscAcc Config.matrixA.t1 v ∧ cscAcc Config.matrixA.t1 v ≤ 23702) ∧
    (-18464 ≤ cscAcc Config.matrixA.t2 v ∧ cscAcc Config.matrixA.t2 v ≤ 34831) ∧
    (-12160 ≤ cscAcc Config.matrixB.t0 v ∧ cscAcc Config.matrixB.t0 v ≤ 26345) ∧
    (-9152 ≤ cscAcc Config.matrixB.t1 v ∧ cscAcc Config.matrixB.t1 v ≤ 23488) ∧
    (-14416 ≤ cscAcc Config.matrixB.t2 v ∧ cscAcc Config.matrixB.t2 v ≤ 27914) ∧
    (∀ row, row = Config.matrixA.t0 ∨ row = Config.matrixA.t1 ∨ row = Config.matrixA.t2 →
      -289 ≤ asr (cscAcc row v) 6 ∧ asr (cscAcc row v) 6 ≤ 544) ∧
    (∀ row, row = Config.matrixB.t0 ∨ row = Config.matrixB.t1 ∨ row = Config.matrixB.t2 →
      -226 ≤ asr (cscAcc row v) 6 ∧ asr (cscAcc row v) 6 ≤ 436)

/-- 42_matrix_converter.md R83 (its last sentence is marked "[derived: from rule R81]"): every output component is 0 to
255, a negative accumulator gives 0, and truncation toward zero in place of the floor would give the same output. -/
def Obligations.ShiftRoundingIsInvisible : Prop :=
  ∀ acc : ℤ, cscOut acc ≤ 255 ∧ (acc < 0 → cscOut acc = 0) ∧
    cscOut acc = (clip (Int.tdiv acc 64) 0 255).toNat

/-- 42_matrix_converter.md R85: the frame function, its descriptor and every sample of it. -/
def Obligations.MatrixFrameSamples : Prop :=
  ∀ (x : Frame) (sel : BitVec 8), x.channels = 3 → x.container = .w8 →
    (cscFrame x sel).height = x.height ∧ (cscFrame x sel).width = x.width ∧
    (cscFrame x sel).channels = 3 ∧ (cscFrame x sel).container = .w8 ∧
    (∀ r c, r < x.height → c < x.width → ∀ out,
      out = cscPixel sel (x.sample r c 0) (x.sample r c 1) (x.sample r c 2) →
      (cscFrame x sel).sample? r c 0 = some out.t0 ∧ (cscFrame x sel).sample? r c 1 = some out.t1 ∧
      (cscFrame x sel).sample? r c 2 = some out.t2) ∧
    (∀ r c k, ¬(r < x.height ∧ c < x.width ∧ k < 3) → (cscFrame x sel).sample? r c k = none)

/-- 42_matrix_converter.md R86: an enabled `Y2R` on a three-channel 8-bit frame completes for every selector and writes
FOUT and ERR = 0 only; on any other frame it ends with ShapeMismatch and writes ERR = 3 only; disabled it passes
through. -/
def Obligations.Y2rResult : Prop :=
  (∀ s : State, s.cscCtrl = 1 → s.fin.frame.channels = 3 → s.fin.frame.container = .w8 →
    ∃ t, exec .y2r s = .next t ∧ t.fout.frame = cscFrame s.fin.frame s.cscStd ∧
      t = { s with fout := t.fout, status := setErr s.status 0 }) ∧
  (∀ s : State, s.cscCtrl = 1 → (s.fin.frame.channels ≠ 3 ∨ s.fin.frame.container ≠ .w8) →
    exec .y2r s = .next { s with status := setErr s.status 3 }) ∧
  (∀ s : State, s.cscCtrl = 0 →
    ∃ t, exec .y2r s = .next t ∧ t.fout.frame = s.fin.frame ∧
      t = { s with fout := t.fout, status := setErr s.status 0 })

/-- 42_matrix_converter.md R87 (D18, D20): a disabled `Y2R` passes FIN through by value whatever its shape, and
SENSOR_BITDEPTH has no effect on the converter. -/
def Obligations.DisabledY2rAndFixedDepth : Prop :=
  (∀ s : State, s.cscCtrl = 0 →
    ∃ t, exec .y2r s = .next t ∧ t.fout.frame = s.fin.frame ∧ statusErr t.status = 0) ∧
  (∀ (s : State) (bd : BitVec 5), ∃ t, exec .y2r s = .next t ∧
    exec .y2r { s with sensorBitdepth := bd } = .next { t with sensorBitdepth := bd })

/-! ## Errors and flags -/

/-- 60_exceptions.md R101 (D23): the order of the tests: the completion code every command reports, the first condition
that holds. -/
def Obligations.ErrorPriority : Prop :=
  (∀ (v : HostValue) (why : Illegal) (s : State), decode (v.extractLsb' 0 32) = .illegal why →
    ∃ t, commandWrite v s = .next t ∧ statusErr t.status = 4) ∧
  (∀ s : State, ∃ t, exec .wbapply s = .next t ∧ statusErr t.status =
    if s.wbCtrl = 0 then 0
    else if s.fin.frame.channels ≠ 1 then 3
    else if 3 < s.sensorBayer.toNat then 1
    else if s.sensorBitdepth.toNat < 1 ∨ s.fin.frame.container.bits < s.sensorBitdepth.toNat then 4
    else 0) ∧
  (∀ s : State, ∃ t, exec .y2r s = .next t ∧ statusErr t.status =
    if s.cscCtrl = 0 then 0
    else if s.fin.frame.channels ≠ 3 ∨ s.fin.frame.container ≠ .w8 then 3
    else 0) ∧
  (∀ (i f : Nat) (s : State), ∃ t, exec (.quant i f) s = .next t ∧ statusErr t.status =
    if i + f = 0 ∨ 32 < i + f then 4 else 0)

/-- 60_exceptions.md R100 (D21): an error completion writes STATUS.ERR, a code 1, 3 or 4, and every other piece of
state keeps the value it had before the command. -/
def Obligations.ErrorWritesOnlyErr : Prop :=
  ∀ (i : Instr) (s t : State), exec i s = .next t → statusErr t.status ≠ 0 →
    (statusErr t.status = 1 ∨ statusErr t.status = 3 ∨ statusErr t.status = 4) ∧
    t = { s with status := setErr s.status (statusErr t.status) }

/-- 60_exceptions.md R103 (D21, D35): a code left in STATUS.ERR changes nothing of what any command or illegal word
does next and is overwritten by it; every transaction that does not write CMD keeps it. -/
def Obligations.OldErrorCodeHasNoEffect : Prop :=
  (∀ (i : Instr) (s : State) (e : BitVec 3), exec i { s with status := setErr s.status e } = exec i s) ∧
  (∀ (v : HostValue) (s : State) (e : BitVec 3),
    commandWrite v { s with status := setErr s.status e } = commandWrite v s) ∧
  (∀ (tr : Transaction) (s t : State), (∀ v, tr ≠ .regWrite 0x01 v) → perform tr s = .next t →
    statusErr t.status = statusErr s.status)

/-- 10_state.md R11 and R25 (D35): no command but its owner writes a SAT flag, and the owner only when it ends without
error; bits [7:6] are never written; which codes ERR takes. (What the owners write is in `QuantResult` and
`WbapplyResult`.) -/
def Obligations.SatFlagsAreWrittenByOwnersOnly : Prop :=
  ∀ (i : Instr) (s t : State), exec i s = .next t →
    (statusErr t.status = 0 ∨ statusErr t.status = 1 ∨ statusErr t.status = 3 ∨ statusErr t.status = 4) ∧
    statusReserved t.status = statusReserved s.status ∧
    ((i ≠ .wbapply ∨ s.wbCtrl = 0 ∨ statusErr t.status ≠ 0) →
      statusSatR t.status = statusSatR s.status ∧ statusSatB t.status = statusSatB s.status) ∧
    (((∀ ib fb, i ≠ .quant ib fb) ∨ statusErr t.status ≠ 0) → statusSatQ t.status = statusSatQ s.status)

/-- 00_scope.md R7, with 10_state.md R25 and R27: a command is a pure function of the registers it reads and of FIN.
Two states that agree on them (and on the number of the next draw, log 5) get the same completion code and, without an
error, the same results, whatever STATUS, the other registers, FOUT and the host's side hold. -/
def Obligations.CommandIsFunctionOfWhatItReads : Prop :=
  ∀ (i : Instr) (s s' : State), sameReads i s s' →
    ∃ t t', exec i s = .next t ∧ exec i s' = .next t' ∧ statusErr t'.status = statusErr t.status ∧
      (statusErr t.status = 0 → sameWrites i s t t')

/-- 10_state.md R10, 20_memory.md R32, 70_reset_and_hazards.md R113: no command writes an RW register, FIN, or the
host's side of the port. -/
def Obligations.CommandsKeepConfigurationAndFin : Prop :=
  ∀ (i : Instr) (s t : State), exec i s = .next t →
    t.wbCtrl = s.wbCtrl ∧ t.sensorBayer = s.sensorBayer ∧ t.sensorBitdepth = s.sensorBitdepth ∧
    t.wbRgainIn = s.wbRgainIn ∧ t.wbBgainIn = s.wbBgainIn ∧ t.cscCtrl = s.cscCtrl ∧ t.cscStd = s.cscStd ∧
    t.qIn = s.qIn ∧ t.fin = s.fin ∧ t.host = s.host

/-! ## The host port -/

/-- 10_state.md R10, 20_memory.md R33: STATUS, the quantized gains, Q_OUT, Q_FMT and FOUT are written by commands only:
every other transaction keeps them. -/
def Obligations.OnlyCommandsWriteResults : Prop :=
  ∀ (tr : Transaction) (s t : State), (∀ v, tr ≠ .regWrite 0x01 v) → perform tr s = .next t →
    t.status = s.status ∧ t.wbRgainQ = s.wbRgainQ ∧ t.wbBgainQ = s.wbBgainQ ∧ t.qOut = s.qOut ∧ t.qFmt = s.qFmt ∧
    t.fout = s.fout

/-- 43_host_port.md R89 (D30): a write to CMD executes the command of v[31:0]; a write to an RW register of width w
stores the low w bits, which read back, and changes no other register and no memory; any other write changes
nothing. -/
def Obligations.RegisterWriteRule : Prop :=
  (∀ (v : HostValue) (s : State) (i : Instr), decode (v.extractLsb' 0 32) = .command i →
    perform (.regWrite 0x01 v) s = exec i s) ∧
  (∀ (v : HostValue) (s : State) (why : Illegal), decode (v.extractLsb' 0 32) = .illegal why →
    perform (.regWrite 0x01 v) s = .next { s with status := setErr s.status 4 }) ∧
  (∀ (n : RegNumber) (v : HostValue) (s : State) (w : Nat), rwWidth n = some w →
    ∃ t, perform (.regWrite n v) s = .next t ∧ (t.regValue n).toNat = v.toNat % 2 ^ w ∧
      (∀ m, m ≠ n → t.regValue m = s.regValue m) ∧
      t.fin = s.fin ∧ t.fout = s.fout ∧ t.draws = s.draws ∧ t.host = s.host) ∧
  (∀ (n : RegNumber) (v : HostValue) (s : State), n ≠ 0x01 → rwWidth n = none →
    perform (.regWrite n v) s = .next s)

/-- 43_host_port.md R90 (D30, D39): what every register number reads as, zero-extended; a read returns that value and
changes nothing of the block. -/
def Obligations.RegisterReadRule : Prop :=
  ∀ (n : RegNumber) (s : State),
    perform (.regRead n) s = .next { s with host := { s.host with
      returned := s.host.returned ++ [.value (s.regValue n)] } } ∧
    s.regValue 0x00 = s.status.setWidth 64 ∧ s.regValue 0x01 = 0 ∧ s.regValue 0x02 = s.wbCtrl.setWidth 64 ∧
    s.regValue 0x03 = s.sensorBayer.setWidth 64 ∧ s.regValue 0x04 = s.sensorBitdepth.setWidth 64 ∧
    s.regValue 0x05 = s.wbRgainIn ∧ s.regValue 0x06 = s.wbBgainIn ∧
    s.regValue 0x07 = s.wbRgainQ.setWidth 64 ∧ s.regValue 0x08 = s.wbBgainQ.setWidth 64 ∧
    s.regValue 0x09 = s.cscCtrl.setWidth 64 ∧ s.regValue 0x0A = s.cscStd.setWidth 64 ∧ s.regValue 0x0B = s.qIn ∧
    s.regValue 0x0C = s.qOut.setWidth 64 ∧ s.regValue 0x0D = s.qFmt.setWidth 64 ∧
    (0x0E ≤ n.toNat → s.regValue n = 0)

/-- 43_host_port.md R91 and R92 (D27): a frame load replaces FIN whole and changes nothing else; a frame read returns
the whole of FOUT and changes nothing of the block. (What FOUT holds before the first error-free frame command is a
free frame: log 4.) -/
def Obligations.FrameLoadAndReadRule : Prop :=
  (∀ (f : Frame.Legal) (s : State), ∃ t, perform (.loadFrame f) s = .next t ∧ t.fin.frame = f.val ∧
    t = { s with fin := t.fin }) ∧
  (∀ s : State, ∃ m, perform .readFrame s = .next { s with host := { s.host with
    returned := s.host.returned ++ [.frame m] } } ∧ m.frame = s.fout.frame)

/-- A step runs the decoded instruction (43_host_port.md R93, 10_state.md R24): with a write of v to CMD as the next
transaction and v[31:0] the word of a command, the step is that command's meaning, the transaction taken from the host
program and the index advanced by one. The same of a word placed by `withFetchWord` (log 2). -/
def Obligations.StepRunsDecodedCommand : Prop :=
  (∀ (s : State) (v : HostValue) (rest : List HostEvent) (i : Instr),
    s.host.pending = .transaction (.regWrite 0x01 v) :: rest → decode (v.extractLsb' 0 32) = .command i →
    step s = exec i { s with host := { s.host with pending := rest, index := s.host.index + 1 } }) ∧
  (∀ (s : State) (nbits w : Nat) (i : Instr), decodeTableWord nbits w = some i →
    step (s.withFetchWord nbits w) = exec i { s with host := { s.host with index := s.host.index + 1 } })

/-- 30_encoding.md R54 and R55 (D33), 43_host_port.md R93: the pseudo-instruction is `QUANT 16, 8`, 0x00021001, and a
script line `CMD <command>` is the write to CMD that makes the step run that command. -/
def Obligations.ScriptCommandRunsCommand : Prop :=
  quantU16F8 = .quant 16 8 ∧ encode quantU16F8 = 0x00021001 ∧
  (∀ (s : State) (i : Instr) (rest : List HostEvent), i.wf = true →
    s.host.pending = .transaction (ScriptLine.cmd i).toTransaction :: rest →
    step s = exec i { s with host := { s.host with pending := rest, index := s.host.index + 1 } })

/-- 70_reset_and_hazards.md R108 (D26), 10_state.md R24: with nothing pending the block is idle and a step changes
nothing. That an idle step is a step at all is the model's choice (log 1). -/
def Obligations.IdleBlockExecutesNothing : Prop :=
  ∀ s : State, s.host.pending = [] → step s = .next s

/-- 70_reset_and_hazards.md R116 and R93's "every command terminates": every step of every state answers a next state;
nothing halts the block and nothing can hang. -/
def Obligations.EveryStepAnswersNext : Prop :=
  ∀ s : State, ∃ t, step s = .next t

/-- 10_state.md R24 and 70_reset_and_hazards.md R116 (D31): from every state, a run over the pending host program ends
with its last event, after exactly as many steps as it has events, whatever errors occur on the way; the index advances
by one per transaction and by none for a reset (log 9). -/
def Obligations.RunEndsWithLastTransaction : Prop :=
  ∀ s : State, ∃ t, Host.Core.run Sys2Proof.core s.host.pending.length s = .next t ∧ t.host.pending = [] ∧
    t.host.index = s.host.index + transactionCount s.host.pending

/-! ## Reset and the invariant -/

/-- 10_state.md R30 (D26): after reset every register reads 0, field by field, and FIN and FOUT are unspecified. -/
def Obligations.ResetValues : Prop :=
  (∀ n : RegNumber, State.reset.regValue n = 0) ∧
  statusErr State.reset.status = 0 ∧ statusSatR State.reset.status = false ∧
  statusSatB State.reset.status = false ∧ statusSatQ State.reset.status = false ∧
  BayerPattern.ofCode State.reset.sensorBayer = some .rggb ∧ decodeGain State.reset.wbRgainIn = .finite 0 ∧
  decodeGain State.reset.wbBgainIn = .finite 0 ∧ decodeGain State.reset.qIn = .finite 0 ∧
  cscMatrix State.reset.cscStd = Config.matrixB ∧
  (∃ a b, State.reset.fin = .unspecified a ∧ State.reset.fout = .unspecified b)

/-- 70_reset_and_hazards.md R107 (D26): an external reset between transactions puts every register of any state at its
reset value and leaves FIN and FOUT unspecified. That a reset is an event of the host's side, that the host program
keeps its place, and that the new contents are fresh free frames, are the model's choices (log 4, log 9). -/
def Obligations.ExternalResetRule : Prop :=
  ∀ (s : State) (rest : List HostEvent), s.host.pending = .reset :: rest →
    ∃ t, step s = .next t ∧ (∀ n : RegNumber, t.regValue n = 0) ∧
      (∃ a b, t.fin = .unspecified a ∧ t.fout = .unspecified b ∧ s.draws ≤ a ∧ a < t.draws ∧ s.draws ≤ b ∧
        b < t.draws) ∧
      t.host = { s.host with pending := rest }

/-- The invariant of the machine (20_memory.md R31, R34; 10_state.md R11, R21, R22) holds at reset. -/
def Obligations.InvariantHoldsAtReset : Prop := State.reset.Inv

/-- Every step keeps the invariant: both frame memories and every frame returned to the host are Frames of 20_memory.md
R31 (every sample within its container: the bound of R34), STATUS holds only codes that 10_state.md R11 says are written
and zeros in its reserved bits, and Q_OUT fits the format Q_FMT holds (R21, R22). -/
def Obligations.StepKeepsInvariant : Prop :=
  ∀ s t : State, s.Inv → step s = .next t → t.Inv
end

