-- ==== Sys2Proof/Laws/Decode.lean ====
section
/-! SUPPORT. The fields of format `C`, and the rows of the opcode map. -/

namespace Sys2Proof

/-- A command word is its four fields (30_encoding.md R45). -/
theorem word_fields (w : CmdWord) :
    w = w.extractLsb' 20 12 ++ (w.extractLsb' 14 6 ++ (w.extractLsb' 8 6 ++ w.extractLsb' 0 8)) := by
  rw [BitVec.extractLsb'_append_extractLsb'_eq_extractLsb' (by rfl),
    BitVec.extractLsb'_append_extractLsb'_eq_extractLsb' (by rfl),
    BitVec.extractLsb'_append_extractLsb'_eq_extractLsb' (by rfl)]
  simp

/-- No two rows of the opcode map match one word: the rows' patterns differ in a bit both masks cover. -/
theorem opcodeMap_disjoint :
    opcodeMap.Pairwise fun a b => a.pattern &&& (a.mask &&& b.mask) ≠ b.pattern &&& (a.mask &&& b.mask) := by
  decide

/-- The mask of `QUANT` keeps OPC and ZERO and clears IBITS and FBITS. -/
theorem quantMask_fields (w : CmdWord) :
    w &&& quantRow.mask = w.extractLsb' 20 12 ++ (0#6 ++ (0#6 ++ w.extractLsb' 0 8)) := by
  have key : ∀ (z : BitVec 12) (f i : BitVec 6) (o : BitVec 8),
      (z ++ (f ++ (i ++ o))) &&& (BitVec.allOnes 12 ++ (0#6 ++ (0#6 ++ BitVec.allOnes 8))) =
        z ++ (0#6 ++ (0#6 ++ o)) := by
    intro z f i o
    simp only [BitVec.and_append, BitVec.and_allOnes, BitVec.and_zero]
  conv_lhs => rw [word_fields w]
  exact key _ _ _ _

/-- The masks of `WBAPPLY` and `Y2R` keep every bit. -/
theorem fullMask (w : CmdWord) : w &&& 0xFFFFFFFF#32 = w := by
  have hm : 0xFFFFFFFF#32 = BitVec.allOnes 32 := by decide
  rw [hm, BitVec.and_allOnes]

@[simp] theorem quantRow_matches (w : CmdWord) :
    quantRow.matchesWord w = true ↔ w &&& 0xFFF000FF#32 = 0x00000001#32 := by
  simp only [OpcodeRow.matchesWord, quantRow, beq_iff_eq]; rfl

@[simp] theorem wbapplyRow_matches (w : CmdWord) : wbapplyRow.matchesWord w = true ↔ w = 0x00000002#32 := by
  simp only [OpcodeRow.matchesWord, wbapplyRow, beq_iff_eq]
  exact (fullMask w).symm ▸ Iff.rfl

@[simp] theorem y2rRow_matches (w : CmdWord) : y2rRow.matchesWord w = true ↔ w = 0x00000003#32 := by
  simp only [OpcodeRow.matchesWord, y2rRow, beq_iff_eq]
  exact (fullMask w).symm ▸ Iff.rfl

/-- The fields of the word that `encode` builds for `QUANT`. -/
theorem encode_quant_fields (i f : Nat) :
    opcField (encode (.quant i f)) = 1 ∧ ibitsField (encode (.quant i f)) = i % 2 ^ 6 ∧
      fbitsField (encode (.quant i f)) = f % 2 ^ 6 ∧ zeroField (encode (.quant i f)) = 0 := by
  have h : ∀ a b : BitVec 6, (0#12 ++ (a ++ (b ++ 0x01#8)) : BitVec 32).extractLsb' 0 8 = 0x01#8 ∧
      (0#12 ++ (a ++ (b ++ 0x01#8)) : BitVec 32).extractLsb' 8 6 = b ∧
      (0#12 ++ (a ++ (b ++ 0x01#8)) : BitVec 32).extractLsb' 14 6 = a ∧
      (0#12 ++ (a ++ (b ++ 0x01#8)) : BitVec 32).extractLsb' 20 12 = 0#12 := by decide +kernel
  obtain ⟨h₁, h₂, h₃, h₄⟩ := h (BitVec.ofNat 6 f) (BitVec.ofNat 6 i)
  simp only [opcField, ibitsField, fbitsField, zeroField, encode]
  rw [h₁, h₂, h₃, h₄]
  simp

end Sys2Proof
end

