-- ==== Sys2Proof/Laws/Frame.lean ====
section
/-! SUPPORT. What `Frame.build` makes and what the sample read answers; every frame memory holds a legal frame. -/

namespace Sys2Proof.Machine

variable {h w c r col k : Nat} {sw : Container} {g : Nat → Nat → Nat → Nat}

@[simp] theorem Frame.build_height : (Frame.build h w c sw g).height = h := rfl
@[simp] theorem Frame.build_width : (Frame.build h w c sw g).width = w := rfl
@[simp] theorem Frame.build_channels : (Frame.build h w c sw g).channels = c := rfl
@[simp] theorem Frame.build_container : (Frame.build h w c sw g).container = sw := rfl

/-- Inside its descriptor a built frame reads the sample it was built from. -/
theorem Frame.sample?_build (hr : r < h) (hc : col < w) (hk : k < c) :
    (Frame.build h w c sw g).sample? r col k = some (g r col k) := by
  simp [Frame.build, Frame.sample?, hr, hc, hk]

/-- Outside its descriptor a built frame has no sample. -/
theorem Frame.sample?_build_outside (ho : ¬(r < h ∧ col < w ∧ k < c)) :
    (Frame.build h w c sw g).sample? r col k = none := by
  by_cases hr : r < h
  · by_cases hc : col < w
    · have hk : ¬k < c := fun hk => ho ⟨hr, hc, hk⟩
      simp [Frame.build, Frame.sample?, hr, hc, hk]
    · simp [Frame.build, Frame.sample?, hr, hc]
  · simp [Frame.build, Frame.sample?, hr]

theorem Frame.sample_build (hr : r < h) (hc : col < w) (hk : k < c) :
    (Frame.build h w c sw g).sample r col k = g r col k := by
  simp [Frame.sample, Frame.sample?_build hr hc hk]

/-- A built frame is legal when its descriptor is within range and every sample fits the container. -/
theorem Frame.build_wf (hh : h ≤ Config.dimMax) (hw : w ≤ Config.dimMax) (hc : c ≤ Config.channelMax)
    (hg : ∀ r col k, r < h → col < w → k < c → g r col k < 2 ^ sw.bits) :
    (Frame.build h w c sw g).wf = true := by
  simp only [Frame.wf, Frame.build, Bool.and_eq_true, decide_eq_true_eq, List.all_eq_true, List.mem_map, rowOk,
    pixelOk, List.length_map, List.length_range, List.mem_range]
  refine ⟨⟨⟨⟨decide_eq_true hh, decide_eq_true hw⟩, decide_eq_true hc⟩, trivial⟩, ?_⟩
  rintro row ⟨r, hr, rfl⟩
  simp only [List.length_map, List.length_range, List.mem_map, List.mem_range, true_and]
  rintro px ⟨col, hcol, rfl⟩
  simp only [List.length_map, List.length_range, List.mem_map, List.mem_range, true_and]
  rintro v ⟨k, hk, rfl⟩
  exact hg r col k hr hcol hk

/-- What the descriptor of a legal frame satisfies (20_memory.md R31). -/
theorem Frame.wf_descriptor {f : Frame} (hf : f.wf = true) :
    f.height ≤ Config.dimMax ∧ f.width ≤ Config.dimMax ∧ f.channels ≤ Config.channelMax ∧
      f.data.length = f.height := by
  simp only [Frame.wf, Bool.and_eq_true, decide_eq_true_eq] at hf
  exact ⟨hf.1.1.1.1, hf.1.1.1.2, hf.1.1.2, hf.1.2⟩

/-- A legal frame has a sample at every triple inside it, and it fits the container (20_memory.md R31, R34). -/
theorem Frame.wf_sample? {f : Frame} (hf : f.wf = true) (hi : f.inside r col k) :
    ∃ v, f.sample? r col k = some v ∧ v < 2 ^ f.container.bits := by
  have hd := Frame.wf_descriptor hf
  simp only [Frame.wf, Bool.and_eq_true, List.all_eq_true, rowOk, pixelOk, decide_eq_true_eq] at hf
  obtain ⟨hr, hc, hk⟩ := hi
  have hrow := hf.2 (f.data[r]'(by omega)) (List.getElem_mem _)
  have hpx := hrow.2 ((f.data[r]'(by omega))[col]'(by omega)) (List.getElem_mem _)
  refine ⟨((f.data[r]'(by omega))[col]'(by omega))[k]'(by omega), ?_, hpx.2 _ (List.getElem_mem _)⟩
  simp [Frame.sample?, hd.2.2.2, hr, hrow.1, hc, hpx.1, hk]

theorem Frame.wf_sample_lt {f : Frame} (hf : f.wf = true) (hi : f.inside r col k) :
    f.sample r col k < 2 ^ f.container.bits := by
  obtain ⟨v, hv, hlt⟩ := Frame.wf_sample? hf hi
  simpa [Frame.sample, hv] using hlt

/-- Two legal frames with one descriptor and equal samples are one frame: the form is canonical. -/
theorem Frame.ext_samples {f g : Frame} (hf : f.wf = true) (hg : g.wf = true) (hh : f.height = g.height)
    (hw : f.width = g.width) (hc : f.channels = g.channels) (hs : f.container = g.container)
    (he : ∀ r col k, f.inside r col k → f.sample r col k = g.sample r col k) : f = g := by
  have hd := Frame.wf_descriptor hf
  have hd' := Frame.wf_descriptor hg
  obtain ⟨fh, fw, fc, fs, fd⟩ := f
  obtain ⟨gh, gw, gc, gs, gd⟩ := g
  simp only at hh hw hc hs hd hd'
  subst hh hw hc hs
  simp only [Frame.mk.injEq, true_and]
  simp only [Frame.wf, Bool.and_eq_true, List.all_eq_true, rowOk, pixelOk, decide_eq_true_eq] at hf hg
  refine List.ext_getElem (by omega) fun r hr hr' => ?_
  have hrow := hf.2 (fd[r]) (List.getElem_mem _)
  have hrow' := hg.2 (gd[r]) (List.getElem_mem _)
  refine List.ext_getElem (by omega) fun col hcol hcol' => ?_
  have hpx := hrow.2 (fd[r][col]) (List.getElem_mem _)
  have hpx' := hrow'.2 (gd[r][col]) (List.getElem_mem _)
  refine List.ext_getElem (by omega) fun k hk hk' => ?_
  have := he r col k ⟨by simp only; omega, by simp only; omega, by simp only; omega⟩
  simpa [Frame.sample, Frame.sample?, hr, hr', hcol, hcol', hk, hk'] using this

/-- An unspecified frame is a Frame of 20_memory.md R31, whatever the free values are. -/
theorem Frame.unspecified_wf (n : Nat) : (Frame.unspecified n).wf = true := by
  refine Frame.build_wf ?_ ?_ ?_ ?_
  · have := (Config.freeHeight n).isLt; simp only [Config.dimMax]; omega
  · have := (Config.freeWidth n).isLt; simp only [Config.dimMax]; omega
  · have := (Config.freeChannels n).isLt; simp only [Config.channelMax]; omega
  · intro r col k _ _ _
    exact Nat.mod_lt _ (Nat.two_pow_pos _)

/-- A frame memory in its canonical form holds a legal frame. -/
theorem Memory.frame_wf {m : Memory} (hm : m.wf = true) : m.frame.wf = true := by
  cases m with
  | unspecified n => exact Frame.unspecified_wf n
  | holds f => exact hm

@[simp] theorem Memory.unspecified_wf (n : Nat) : (Memory.unspecified n).wf = true := rfl
@[simp] theorem Memory.holds_wf (f : Frame) : (Memory.holds f).wf = f.wf := rfl
@[simp] theorem Memory.holds_frame (f : Frame) : (Memory.holds f).frame = f := rfl

theorem Container.bits_pos (sw : Container) : 0 < sw.bits := by cases sw <;> decide
theorem Container.bits_le (sw : Container) : sw.bits ≤ 16 := by cases sw <;> decide

end Sys2Proof.Machine
end

