-- ==== Sys2Proof/Laws/Ops.lean ====
section
/-! SUPPORT. What the arithmetic primitives of 00_scope.md R8 answer. -/

namespace Sys2Proof.Machine

/-- A clip is within its limits. -/
theorem clip_mem {x lo hi : Int} (h : lo ≤ hi) : lo ≤ clip x lo hi ∧ clip x lo hi ≤ hi := by
  simp only [clip]; split <;> [omega; split <;> omega]

/-- A value within the limits is its own clip. -/
theorem clip_of_mem {x lo hi : Int} (h₁ : lo ≤ x) (h₂ : x ≤ hi) : clip x lo hi = x := by
  simp only [clip]; split <;> [omega; split <;> omega]

/-- A non-negative value clipped to [0, hi] is the smaller of the two. -/
theorem clip_nonneg {x hi : Int} (h : 0 ≤ x) : clip x 0 hi = min x hi := by
  simp only [clip]; split <;> [omega; split <;> omega]

/-- Clip to [0, hi] by maximum and minimum. -/
theorem clip_eq_max_min {x hi : Int} (h : 0 ≤ hi) : clip x 0 hi = max 0 (min hi x) := by
  simp only [clip]; split <;> [omega; split <;> omega]

end Sys2Proof.Machine
end

