-- ==== Sys2Proof/Laws/Flags.lean ====
section
/-! SUPPORT. Each field of STATUS after each write of a field. -/

namespace Sys2Proof.Machine

/-- A written bit reads back, every other bit is kept. -/
theorem getLsbD_putBit (st : BitVec 8) {k : Nat} (hk : k < 8) (b : Bool) (i : Nat) :
    (putBit st k b).getLsbD i = if i = k then b else st.getLsbD i := by
  have h1 : (1#8 <<< k).getLsbD i = decide (i = k) := by
    by_cases hi : i = k
    · subst hi; simp [hk]
    · by_cases h8 : i < 8
      · simp [h8, hi]; omega
      · simp [h8, hi]
  by_cases h8 : i < 8
  · cases b <;> simp only [putBit, Bool.false_eq_true, if_false, if_true, BitVec.getLsbD_and, BitVec.getLsbD_or,
      BitVec.getLsbD_not, h1, h8] <;> by_cases hi : i = k <;> simp [hi]
  · have : i ≠ k := by omega
    simp [this, BitVec.getLsbD_of_ge _ i (show 8 ≤ i by omega)]

/-- ERR takes the written code, every other bit is kept. -/
theorem getLsbD_setErr (st : BitVec 8) (e : BitVec 3) (i : Nat) :
    (setErr st e).getLsbD i = if i < 3 then e.getLsbD i else st.getLsbD i := by
  simp only [setErr, BitVec.getLsbD_append, BitVec.getLsbD_extractLsb']
  split
  · rfl
  · rename_i h
    by_cases h8 : i < 8
    · simp [show i - 3 < 5 by omega, show 3 + (i - 3) = i by omega]
    · simp [show ¬ i - 3 < 5 by omega, BitVec.getLsbD_of_ge st i (by omega)]

@[simp] theorem statusErr_setErr (st : BitVec 8) (e : BitVec 3) :
    statusErr (setErr st e) = e := by
  apply BitVec.eq_of_getLsbD_eq
  intro i hi
  simp only [statusErr, BitVec.getLsbD_extractLsb', getLsbD_setErr]
  simp only [hi, decide_true, Bool.true_and]
  rw [if_pos (by omega)]
  simp

@[simp] theorem statusSatR_setErr (st : BitVec 8) (e : BitVec 3) :
    statusSatR (setErr st e) = statusSatR st := by
  unfold statusSatR
  rw [getLsbD_setErr]; rfl

@[simp] theorem statusSatB_setErr (st : BitVec 8) (e : BitVec 3) :
    statusSatB (setErr st e) = statusSatB st := by
  unfold statusSatB
  rw [getLsbD_setErr]; rfl

@[simp] theorem statusSatQ_setErr (st : BitVec 8) (e : BitVec 3) :
    statusSatQ (setErr st e) = statusSatQ st := by
  unfold statusSatQ
  rw [getLsbD_setErr]; rfl

@[simp] theorem statusReserved_setErr (st : BitVec 8) (e : BitVec 3) :
    statusReserved (setErr st e) = statusReserved st := by
  apply BitVec.eq_of_getLsbD_eq
  intro i hi
  simp only [statusReserved, BitVec.getLsbD_extractLsb', getLsbD_setErr]
  simp only [hi, decide_true, Bool.true_and]
  rw [if_neg (by omega)]

@[simp] theorem statusErr_setSatR (st : BitVec 8) (b : Bool) :
    statusErr (setSatR st b) = statusErr st := by
  apply BitVec.eq_of_getLsbD_eq
  intro i hi
  simp only [statusErr, BitVec.getLsbD_extractLsb', setSatR, getLsbD_putBit _ (show 3 < 8 by decide)]
  simp only [hi, decide_true, Bool.true_and]
  rw [if_neg (by omega)]

@[simp] theorem statusSatR_setSatR (st : BitVec 8) (b : Bool) :
    statusSatR (setSatR st b) = b := by
  unfold statusSatR setSatR
  rw [getLsbD_putBit _ (by decide)]; rfl

@[simp] theorem statusSatB_setSatR (st : BitVec 8) (b : Bool) :
    statusSatB (setSatR st b) = statusSatB st := by
  unfold statusSatB setSatR
  rw [getLsbD_putBit _ (by decide)]; rfl

@[simp] theorem statusSatQ_setSatR (st : BitVec 8) (b : Bool) :
    statusSatQ (setSatR st b) = statusSatQ st := by
  unfold statusSatQ setSatR
  rw [getLsbD_putBit _ (by decide)]; rfl

@[simp] theorem statusReserved_setSatR (st : BitVec 8) (b : Bool) :
    statusReserved (setSatR st b) = statusReserved st := by
  apply BitVec.eq_of_getLsbD_eq
  intro i hi
  simp only [statusReserved, BitVec.getLsbD_extractLsb', setSatR, getLsbD_putBit _ (show 3 < 8 by decide)]
  simp only [hi, decide_true, Bool.true_and]
  rw [if_neg (by omega)]

@[simp] theorem statusErr_setSatB (st : BitVec 8) (b : Bool) :
    statusErr (setSatB st b) = statusErr st := by
  apply BitVec.eq_of_getLsbD_eq
  intro i hi
  simp only [statusErr, BitVec.getLsbD_extractLsb', setSatB, getLsbD_putBit _ (show 4 < 8 by decide)]
  simp only [hi, decide_true, Bool.true_and]
  rw [if_neg (by omega)]

@[simp] theorem statusSatR_setSatB (st : BitVec 8) (b : Bool) :
    statusSatR (setSatB st b) = statusSatR st := by
  unfold statusSatR setSatB
  rw [getLsbD_putBit _ (by decide)]; rfl

@[simp] theorem statusSatB_setSatB (st : BitVec 8) (b : Bool) :
    statusSatB (setSatB st b) = b := by
  unfold statusSatB setSatB
  rw [getLsbD_putBit _ (by decide)]; rfl

@[simp] theorem statusSatQ_setSatB (st : BitVec 8) (b : Bool) :
    statusSatQ (setSatB st b) = statusSatQ st := by
  unfold statusSatQ setSatB
  rw [getLsbD_putBit _ (by decide)]; rfl

@[simp] theorem statusReserved_setSatB (st : BitVec 8) (b : Bool) :
    statusReserved (setSatB st b) = statusReserved st := by
  apply BitVec.eq_of_getLsbD_eq
  intro i hi
  simp only [statusReserved, BitVec.getLsbD_extractLsb', setSatB, getLsbD_putBit _ (show 4 < 8 by decide)]
  simp only [hi, decide_true, Bool.true_and]
  rw [if_neg (by omega)]

@[simp] theorem statusErr_setSatQ (st : BitVec 8) (b : Bool) :
    statusErr (setSatQ st b) = statusErr st := by
  apply BitVec.eq_of_getLsbD_eq
  intro i hi
  simp only [statusErr, BitVec.getLsbD_extractLsb', setSatQ, getLsbD_putBit _ (show 5 < 8 by decide)]
  simp only [hi, decide_true, Bool.true_and]
  rw [if_neg (by omega)]

@[simp] theorem statusSatR_setSatQ (st : BitVec 8) (b : Bool) :
    statusSatR (setSatQ st b) = statusSatR st := by
  unfold statusSatR setSatQ
  rw [getLsbD_putBit _ (by decide)]; rfl

@[simp] theorem statusSatB_setSatQ (st : BitVec 8) (b : Bool) :
    statusSatB (setSatQ st b) = statusSatB st := by
  unfold statusSatB setSatQ
  rw [getLsbD_putBit _ (by decide)]; rfl

@[simp] theorem statusSatQ_setSatQ (st : BitVec 8) (b : Bool) :
    statusSatQ (setSatQ st b) = b := by
  unfold statusSatQ setSatQ
  rw [getLsbD_putBit _ (by decide)]; rfl

@[simp] theorem statusReserved_setSatQ (st : BitVec 8) (b : Bool) :
    statusReserved (setSatQ st b) = statusReserved st := by
  apply BitVec.eq_of_getLsbD_eq
  intro i hi
  simp only [statusReserved, BitVec.getLsbD_extractLsb', setSatQ, getLsbD_putBit _ (show 5 < 8 by decide)]
  simp only [hi, decide_true, Bool.true_and]
  rw [if_neg (by omega)]

/-- The last write of ERR wins. -/
@[simp] theorem setErr_setErr (st : BitVec 8) (d e : BitVec 3) : setErr (setErr st d) e = setErr st e := by
  apply BitVec.eq_of_getLsbD_eq
  intro i hi
  simp only [getLsbD_setErr]
  split <;> simp [*]

/-- A write of ERR and a write of a higher bit commute. -/
theorem setErr_putBit (st : BitVec 8) (e : BitVec 3) (b : Bool) {k : Nat} (hk : k < 8) (h3 : 3 ≤ k) :
    setErr (putBit st k b) e = putBit (setErr st e) k b := by
  apply BitVec.eq_of_getLsbD_eq
  intro i hi
  simp only [getLsbD_setErr, getLsbD_putBit _ hk]
  split <;> split <;> first | rfl | omega

theorem setErr_setSatR (st : BitVec 8) (e : BitVec 3) (b : Bool) : setErr (setSatR st b) e = setSatR (setErr st e) b :=
  setErr_putBit st e b (by decide) (by decide)

theorem setErr_setSatB (st : BitVec 8) (e : BitVec 3) (b : Bool) : setErr (setSatB st b) e = setSatB (setErr st e) b :=
  setErr_putBit st e b (by decide) (by decide)

theorem setErr_setSatQ (st : BitVec 8) (e : BitVec 3) (b : Bool) : setErr (setSatQ st b) e = setSatQ (setErr st e) b :=
  setErr_putBit st e b (by decide) (by decide)

/-- STATUS is its five fields (10_state.md R11). -/
theorem status_ext (a b : BitVec 8) (he : statusErr a = statusErr b) (hr : statusSatR a = statusSatR b)
    (hb : statusSatB a = statusSatB b) (hq : statusSatQ a = statusSatQ b)
    (hv : statusReserved a = statusReserved b) : a = b := by
  have h₁ : ∀ st : BitVec 8, st = statusReserved st ++ (BitVec.ofBool (statusSatQ st) ++
      (BitVec.ofBool (statusSatB st) ++ (BitVec.ofBool (statusSatR st) ++ statusErr st))) := by decide +kernel
  rw [h₁ a, h₁ b, he, hr, hb, hq, hv]

@[simp] theorem Completion.code_success : Completion.success.code = 0 := rfl
@[simp] theorem Completion.code_invalidPattern : Completion.invalidPattern.code = 1 := rfl
@[simp] theorem Completion.code_shapeMismatch : Completion.shapeMismatch.code = 3 := rfl
@[simp] theorem Completion.code_illegalOperation : Completion.illegalOperation.code = 4 := rfl

end Sys2Proof.Machine
end

