-- ==== Sys2Proof/Laws/State.lean ====
section
/-! SUPPORT. One lemma per field per update of State, so that no later proof unfolds a record update. -/

namespace Sys2Proof.Machine

variable (s : State)


/-! `State.complete` -/

@[simp] theorem State.complete_status (c : Completion) : (s.complete c).status = setErr s.status c.code := rfl
@[simp] theorem State.complete_wbCtrl (c : Completion) : (s.complete c).wbCtrl = s.wbCtrl := rfl
@[simp] theorem State.complete_sensorBayer (c : Completion) : (s.complete c).sensorBayer = s.sensorBayer := rfl
@[simp] theorem State.complete_sensorBitdepth (c : Completion) : (s.complete c).sensorBitdepth = s.sensorBitdepth := rfl
@[simp] theorem State.complete_wbRgainIn (c : Completion) : (s.complete c).wbRgainIn = s.wbRgainIn := rfl
@[simp] theorem State.complete_wbBgainIn (c : Completion) : (s.complete c).wbBgainIn = s.wbBgainIn := rfl
@[simp] theorem State.complete_wbRgainQ (c : Completion) : (s.complete c).wbRgainQ = s.wbRgainQ := rfl
@[simp] theorem State.complete_wbBgainQ (c : Completion) : (s.complete c).wbBgainQ = s.wbBgainQ := rfl
@[simp] theorem State.complete_cscCtrl (c : Completion) : (s.complete c).cscCtrl = s.cscCtrl := rfl
@[simp] theorem State.complete_cscStd (c : Completion) : (s.complete c).cscStd = s.cscStd := rfl
@[simp] theorem State.complete_qIn (c : Completion) : (s.complete c).qIn = s.qIn := rfl
@[simp] theorem State.complete_qOut (c : Completion) : (s.complete c).qOut = s.qOut := rfl
@[simp] theorem State.complete_qFmt (c : Completion) : (s.complete c).qFmt = s.qFmt := rfl
@[simp] theorem State.complete_fin (c : Completion) : (s.complete c).fin = s.fin := rfl
@[simp] theorem State.complete_fout (c : Completion) : (s.complete c).fout = s.fout := rfl
@[simp] theorem State.complete_draws (c : Completion) : (s.complete c).draws = s.draws := rfl
@[simp] theorem State.complete_host (c : Completion) : (s.complete c).host = s.host := rfl

/-! `State.raise` -/

@[simp] theorem State.raise_status (c : Completion) : (s.raise c).status = setErr s.status c.code := rfl
@[simp] theorem State.raise_wbCtrl (c : Completion) : (s.raise c).wbCtrl = s.wbCtrl := rfl
@[simp] theorem State.raise_sensorBayer (c : Completion) : (s.raise c).sensorBayer = s.sensorBayer := rfl
@[simp] theorem State.raise_sensorBitdepth (c : Completion) : (s.raise c).sensorBitdepth = s.sensorBitdepth := rfl
@[simp] theorem State.raise_wbRgainIn (c : Completion) : (s.raise c).wbRgainIn = s.wbRgainIn := rfl
@[simp] theorem State.raise_wbBgainIn (c : Completion) : (s.raise c).wbBgainIn = s.wbBgainIn := rfl
@[simp] theorem State.raise_wbRgainQ (c : Completion) : (s.raise c).wbRgainQ = s.wbRgainQ := rfl
@[simp] theorem State.raise_wbBgainQ (c : Completion) : (s.raise c).wbBgainQ = s.wbBgainQ := rfl
@[simp] theorem State.raise_cscCtrl (c : Completion) : (s.raise c).cscCtrl = s.cscCtrl := rfl
@[simp] theorem State.raise_cscStd (c : Completion) : (s.raise c).cscStd = s.cscStd := rfl
@[simp] theorem State.raise_qIn (c : Completion) : (s.raise c).qIn = s.qIn := rfl
@[simp] theorem State.raise_qOut (c : Completion) : (s.raise c).qOut = s.qOut := rfl
@[simp] theorem State.raise_qFmt (c : Completion) : (s.raise c).qFmt = s.qFmt := rfl
@[simp] theorem State.raise_fin (c : Completion) : (s.raise c).fin = s.fin := rfl
@[simp] theorem State.raise_fout (c : Completion) : (s.raise c).fout = s.fout := rfl
@[simp] theorem State.raise_draws (c : Completion) : (s.raise c).draws = s.draws := rfl
@[simp] theorem State.raise_host (c : Completion) : (s.raise c).host = s.host := rfl

/-! `State.succeed` -/

@[simp] theorem State.succeed_status : (s.succeed).status = setErr s.status 0 := rfl
@[simp] theorem State.succeed_wbCtrl : (s.succeed).wbCtrl = s.wbCtrl := rfl
@[simp] theorem State.succeed_sensorBayer : (s.succeed).sensorBayer = s.sensorBayer := rfl
@[simp] theorem State.succeed_sensorBitdepth : (s.succeed).sensorBitdepth = s.sensorBitdepth := rfl
@[simp] theorem State.succeed_wbRgainIn : (s.succeed).wbRgainIn = s.wbRgainIn := rfl
@[simp] theorem State.succeed_wbBgainIn : (s.succeed).wbBgainIn = s.wbBgainIn := rfl
@[simp] theorem State.succeed_wbRgainQ : (s.succeed).wbRgainQ = s.wbRgainQ := rfl
@[simp] theorem State.succeed_wbBgainQ : (s.succeed).wbBgainQ = s.wbBgainQ := rfl
@[simp] theorem State.succeed_cscCtrl : (s.succeed).cscCtrl = s.cscCtrl := rfl
@[simp] theorem State.succeed_cscStd : (s.succeed).cscStd = s.cscStd := rfl
@[simp] theorem State.succeed_qIn : (s.succeed).qIn = s.qIn := rfl
@[simp] theorem State.succeed_qOut : (s.succeed).qOut = s.qOut := rfl
@[simp] theorem State.succeed_qFmt : (s.succeed).qFmt = s.qFmt := rfl
@[simp] theorem State.succeed_fin : (s.succeed).fin = s.fin := rfl
@[simp] theorem State.succeed_fout : (s.succeed).fout = s.fout := rfl
@[simp] theorem State.succeed_draws : (s.succeed).draws = s.draws := rfl
@[simp] theorem State.succeed_host : (s.succeed).host = s.host := rfl

/-! `State.passThrough` -/

@[simp] theorem State.passThrough_status : (s.passThrough).status = setErr s.status 0 := rfl
@[simp] theorem State.passThrough_wbCtrl : (s.passThrough).wbCtrl = s.wbCtrl := rfl
@[simp] theorem State.passThrough_sensorBayer : (s.passThrough).sensorBayer = s.sensorBayer := rfl
@[simp] theorem State.passThrough_sensorBitdepth : (s.passThrough).sensorBitdepth = s.sensorBitdepth := rfl
@[simp] theorem State.passThrough_wbRgainIn : (s.passThrough).wbRgainIn = s.wbRgainIn := rfl
@[simp] theorem State.passThrough_wbBgainIn : (s.passThrough).wbBgainIn = s.wbBgainIn := rfl
@[simp] theorem State.passThrough_wbRgainQ : (s.passThrough).wbRgainQ = s.wbRgainQ := rfl
@[simp] theorem State.passThrough_wbBgainQ : (s.passThrough).wbBgainQ = s.wbBgainQ := rfl
@[simp] theorem State.passThrough_cscCtrl : (s.passThrough).cscCtrl = s.cscCtrl := rfl
@[simp] theorem State.passThrough_cscStd : (s.passThrough).cscStd = s.cscStd := rfl
@[simp] theorem State.passThrough_qIn : (s.passThrough).qIn = s.qIn := rfl
@[simp] theorem State.passThrough_qOut : (s.passThrough).qOut = s.qOut := rfl
@[simp] theorem State.passThrough_qFmt : (s.passThrough).qFmt = s.qFmt := rfl
@[simp] theorem State.passThrough_fin : (s.passThrough).fin = s.fin := rfl
@[simp] theorem State.passThrough_fout : (s.passThrough).fout = s.fin := rfl
@[simp] theorem State.passThrough_draws : (s.passThrough).draws = s.draws := rfl
@[simp] theorem State.passThrough_host : (s.passThrough).host = s.host := rfl

/-! `State.afterQuantize` -/

@[simp] theorem State.afterQuantize_status (g : GainIn) : (s.afterQuantize g).status = s.status := rfl
@[simp] theorem State.afterQuantize_wbCtrl (g : GainIn) : (s.afterQuantize g).wbCtrl = s.wbCtrl := rfl
@[simp] theorem State.afterQuantize_sensorBayer (g : GainIn) : (s.afterQuantize g).sensorBayer = s.sensorBayer := rfl
@[simp] theorem State.afterQuantize_sensorBitdepth (g : GainIn) : (s.afterQuantize g).sensorBitdepth = s.sensorBitdepth := rfl
@[simp] theorem State.afterQuantize_wbRgainIn (g : GainIn) : (s.afterQuantize g).wbRgainIn = s.wbRgainIn := rfl
@[simp] theorem State.afterQuantize_wbBgainIn (g : GainIn) : (s.afterQuantize g).wbBgainIn = s.wbBgainIn := rfl
@[simp] theorem State.afterQuantize_wbRgainQ (g : GainIn) : (s.afterQuantize g).wbRgainQ = s.wbRgainQ := rfl
@[simp] theorem State.afterQuantize_wbBgainQ (g : GainIn) : (s.afterQuantize g).wbBgainQ = s.wbBgainQ := rfl
@[simp] theorem State.afterQuantize_cscCtrl (g : GainIn) : (s.afterQuantize g).cscCtrl = s.cscCtrl := rfl
@[simp] theorem State.afterQuantize_cscStd (g : GainIn) : (s.afterQuantize g).cscStd = s.cscStd := rfl
@[simp] theorem State.afterQuantize_qIn (g : GainIn) : (s.afterQuantize g).qIn = s.qIn := rfl
@[simp] theorem State.afterQuantize_qOut (g : GainIn) : (s.afterQuantize g).qOut = s.qOut := rfl
@[simp] theorem State.afterQuantize_qFmt (g : GainIn) : (s.afterQuantize g).qFmt = s.qFmt := rfl
@[simp] theorem State.afterQuantize_fin (g : GainIn) : (s.afterQuantize g).fin = s.fin := rfl
@[simp] theorem State.afterQuantize_fout (g : GainIn) : (s.afterQuantize g).fout = s.fout := rfl
@[simp] theorem State.afterQuantize_draws (g : GainIn) : (s.afterQuantize g).draws = s.draws + gainDraws g := rfl
@[simp] theorem State.afterQuantize_host (g : GainIn) : (s.afterQuantize g).host = s.host := rfl

/-! `State.afterGains` -/

@[simp] theorem State.afterGains_status : (s.afterGains).status = s.status := rfl
@[simp] theorem State.afterGains_wbCtrl : (s.afterGains).wbCtrl = s.wbCtrl := rfl
@[simp] theorem State.afterGains_sensorBayer : (s.afterGains).sensorBayer = s.sensorBayer := rfl
@[simp] theorem State.afterGains_sensorBitdepth : (s.afterGains).sensorBitdepth = s.sensorBitdepth := rfl
@[simp] theorem State.afterGains_wbRgainIn : (s.afterGains).wbRgainIn = s.wbRgainIn := rfl
@[simp] theorem State.afterGains_wbBgainIn : (s.afterGains).wbBgainIn = s.wbBgainIn := rfl
@[simp] theorem State.afterGains_wbRgainQ : (s.afterGains).wbRgainQ = s.wbRgainQ := rfl
@[simp] theorem State.afterGains_wbBgainQ : (s.afterGains).wbBgainQ = s.wbBgainQ := rfl
@[simp] theorem State.afterGains_cscCtrl : (s.afterGains).cscCtrl = s.cscCtrl := rfl
@[simp] theorem State.afterGains_cscStd : (s.afterGains).cscStd = s.cscStd := rfl
@[simp] theorem State.afterGains_qIn : (s.afterGains).qIn = s.qIn := rfl
@[simp] theorem State.afterGains_qOut : (s.afterGains).qOut = s.qOut := rfl
@[simp] theorem State.afterGains_qFmt : (s.afterGains).qFmt = s.qFmt := rfl
@[simp] theorem State.afterGains_fin : (s.afterGains).fin = s.fin := rfl
@[simp] theorem State.afterGains_fout : (s.afterGains).fout = s.fout := rfl
@[simp] theorem State.afterGains_draws : (s.afterGains).draws = s.draws + gainDraws (decodeGain s.wbRgainIn) + gainDraws (decodeGain s.wbBgainIn) := rfl
@[simp] theorem State.afterGains_host : (s.afterGains).host = s.host := rfl

/-! `State.writeQuant` -/

@[simp] theorem State.writeQuant_status (q : Quantized) (i f : Nat) : (s.writeQuant q i f).status = setErr (setSatQ s.status q.sat) 0 := rfl
@[simp] theorem State.writeQuant_wbCtrl (q : Quantized) (i f : Nat) : (s.writeQuant q i f).wbCtrl = s.wbCtrl := rfl
@[simp] theorem State.writeQuant_sensorBayer (q : Quantized) (i f : Nat) : (s.writeQuant q i f).sensorBayer = s.sensorBayer := rfl
@[simp] theorem State.writeQuant_sensorBitdepth (q : Quantized) (i f : Nat) : (s.writeQuant q i f).sensorBitdepth = s.sensorBitdepth := rfl
@[simp] theorem State.writeQuant_wbRgainIn (q : Quantized) (i f : Nat) : (s.writeQuant q i f).wbRgainIn = s.wbRgainIn := rfl
@[simp] theorem State.writeQuant_wbBgainIn (q : Quantized) (i f : Nat) : (s.writeQuant q i f).wbBgainIn = s.wbBgainIn := rfl
@[simp] theorem State.writeQuant_wbRgainQ (q : Quantized) (i f : Nat) : (s.writeQuant q i f).wbRgainQ = s.wbRgainQ := rfl
@[simp] theorem State.writeQuant_wbBgainQ (q : Quantized) (i f : Nat) : (s.writeQuant q i f).wbBgainQ = s.wbBgainQ := rfl
@[simp] theorem State.writeQuant_cscCtrl (q : Quantized) (i f : Nat) : (s.writeQuant q i f).cscCtrl = s.cscCtrl := rfl
@[simp] theorem State.writeQuant_cscStd (q : Quantized) (i f : Nat) : (s.writeQuant q i f).cscStd = s.cscStd := rfl
@[simp] theorem State.writeQuant_qIn (q : Quantized) (i f : Nat) : (s.writeQuant q i f).qIn = s.qIn := rfl
@[simp] theorem State.writeQuant_qOut (q : Quantized) (i f : Nat) : (s.writeQuant q i f).qOut = BitVec.ofNat 32 q.code := rfl
@[simp] theorem State.writeQuant_qFmt (q : Quantized) (i f : Nat) : (s.writeQuant q i f).qFmt = formatWord i f := rfl
@[simp] theorem State.writeQuant_fin (q : Quantized) (i f : Nat) : (s.writeQuant q i f).fin = s.fin := rfl
@[simp] theorem State.writeQuant_fout (q : Quantized) (i f : Nat) : (s.writeQuant q i f).fout = s.fout := rfl
@[simp] theorem State.writeQuant_draws (q : Quantized) (i f : Nat) : (s.writeQuant q i f).draws = s.draws := rfl
@[simp] theorem State.writeQuant_host (q : Quantized) (i f : Nat) : (s.writeQuant q i f).host = s.host := rfl

/-! `State.writeGains` -/

@[simp] theorem State.writeGains_status (qr qb : Quantized) (out : Frame) : (s.writeGains qr qb out).status = setErr (setSatB (setSatR s.status qr.sat) qb.sat) 0 := rfl
@[simp] theorem State.writeGains_wbCtrl (qr qb : Quantized) (out : Frame) : (s.writeGains qr qb out).wbCtrl = s.wbCtrl := rfl
@[simp] theorem State.writeGains_sensorBayer (qr qb : Quantized) (out : Frame) : (s.writeGains qr qb out).sensorBayer = s.sensorBayer := rfl
@[simp] theorem State.writeGains_sensorBitdepth (qr qb : Quantized) (out : Frame) : (s.writeGains qr qb out).sensorBitdepth = s.sensorBitdepth := rfl
@[simp] theorem State.writeGains_wbRgainIn (qr qb : Quantized) (out : Frame) : (s.writeGains qr qb out).wbRgainIn = s.wbRgainIn := rfl
@[simp] theorem State.writeGains_wbBgainIn (qr qb : Quantized) (out : Frame) : (s.writeGains qr qb out).wbBgainIn = s.wbBgainIn := rfl
@[simp] theorem State.writeGains_wbRgainQ (qr qb : Quantized) (out : Frame) : (s.writeGains qr qb out).wbRgainQ = BitVec.ofNat 24 qr.code := rfl
@[simp] theorem State.writeGains_wbBgainQ (qr qb : Quantized) (out : Frame) : (s.writeGains qr qb out).wbBgainQ = BitVec.ofNat 24 qb.code := rfl
@[simp] theorem State.writeGains_cscCtrl (qr qb : Quantized) (out : Frame) : (s.writeGains qr qb out).cscCtrl = s.cscCtrl := rfl
@[simp] theorem State.writeGains_cscStd (qr qb : Quantized) (out : Frame) : (s.writeGains qr qb out).cscStd = s.cscStd := rfl
@[simp] theorem State.writeGains_qIn (qr qb : Quantized) (out : Frame) : (s.writeGains qr qb out).qIn = s.qIn := rfl
@[simp] theorem State.writeGains_qOut (qr qb : Quantized) (out : Frame) : (s.writeGains qr qb out).qOut = s.qOut := rfl
@[simp] theorem State.writeGains_qFmt (qr qb : Quantized) (out : Frame) : (s.writeGains qr qb out).qFmt = s.qFmt := rfl
@[simp] theorem State.writeGains_fin (qr qb : Quantized) (out : Frame) : (s.writeGains qr qb out).fin = s.fin := rfl
@[simp] theorem State.writeGains_fout (qr qb : Quantized) (out : Frame) : (s.writeGains qr qb out).fout = .holds out := rfl
@[simp] theorem State.writeGains_draws (qr qb : Quantized) (out : Frame) : (s.writeGains qr qb out).draws = s.draws := rfl
@[simp] theorem State.writeGains_host (qr qb : Quantized) (out : Frame) : (s.writeGains qr qb out).host = s.host := rfl

/-! `State.writeReg` -/

@[simp] theorem State.writeReg_status (n : RegName) (v : HostValue) : (s.writeReg n v).status = s.status := by cases n <;> rfl
@[simp] theorem State.writeReg_wbRgainQ (n : RegName) (v : HostValue) : (s.writeReg n v).wbRgainQ = s.wbRgainQ := by cases n <;> rfl
@[simp] theorem State.writeReg_wbBgainQ (n : RegName) (v : HostValue) : (s.writeReg n v).wbBgainQ = s.wbBgainQ := by cases n <;> rfl
@[simp] theorem State.writeReg_qOut (n : RegName) (v : HostValue) : (s.writeReg n v).qOut = s.qOut := by cases n <;> rfl
@[simp] theorem State.writeReg_qFmt (n : RegName) (v : HostValue) : (s.writeReg n v).qFmt = s.qFmt := by cases n <;> rfl
@[simp] theorem State.writeReg_fin (n : RegName) (v : HostValue) : (s.writeReg n v).fin = s.fin := by cases n <;> rfl
@[simp] theorem State.writeReg_fout (n : RegName) (v : HostValue) : (s.writeReg n v).fout = s.fout := by cases n <;> rfl
@[simp] theorem State.writeReg_draws (n : RegName) (v : HostValue) : (s.writeReg n v).draws = s.draws := by cases n <;> rfl
@[simp] theorem State.writeReg_host (n : RegName) (v : HostValue) : (s.writeReg n v).host = s.host := by cases n <;> rfl

/-! `State.returns` -/

@[simp] theorem State.returns_status (r : Returned) : (s.returns r).status = s.status := rfl
@[simp] theorem State.returns_wbCtrl (r : Returned) : (s.returns r).wbCtrl = s.wbCtrl := rfl
@[simp] theorem State.returns_sensorBayer (r : Returned) : (s.returns r).sensorBayer = s.sensorBayer := rfl
@[simp] theorem State.returns_sensorBitdepth (r : Returned) : (s.returns r).sensorBitdepth = s.sensorBitdepth := rfl
@[simp] theorem State.returns_wbRgainIn (r : Returned) : (s.returns r).wbRgainIn = s.wbRgainIn := rfl
@[simp] theorem State.returns_wbBgainIn (r : Returned) : (s.returns r).wbBgainIn = s.wbBgainIn := rfl
@[simp] theorem State.returns_wbRgainQ (r : Returned) : (s.returns r).wbRgainQ = s.wbRgainQ := rfl
@[simp] theorem State.returns_wbBgainQ (r : Returned) : (s.returns r).wbBgainQ = s.wbBgainQ := rfl
@[simp] theorem State.returns_cscCtrl (r : Returned) : (s.returns r).cscCtrl = s.cscCtrl := rfl
@[simp] theorem State.returns_cscStd (r : Returned) : (s.returns r).cscStd = s.cscStd := rfl
@[simp] theorem State.returns_qIn (r : Returned) : (s.returns r).qIn = s.qIn := rfl
@[simp] theorem State.returns_qOut (r : Returned) : (s.returns r).qOut = s.qOut := rfl
@[simp] theorem State.returns_qFmt (r : Returned) : (s.returns r).qFmt = s.qFmt := rfl
@[simp] theorem State.returns_fin (r : Returned) : (s.returns r).fin = s.fin := rfl
@[simp] theorem State.returns_fout (r : Returned) : (s.returns r).fout = s.fout := rfl
@[simp] theorem State.returns_draws (r : Returned) : (s.returns r).draws = s.draws := rfl
@[simp] theorem State.returns_host (r : Returned) : (s.returns r).host = { s.host with returned := s.host.returned ++ [r] } := rfl

/-! `State.accept` -/

@[simp] theorem State.accept_status (rest : List HostEvent) : (s.accept rest).status = s.status := rfl
@[simp] theorem State.accept_wbCtrl (rest : List HostEvent) : (s.accept rest).wbCtrl = s.wbCtrl := rfl
@[simp] theorem State.accept_sensorBayer (rest : List HostEvent) : (s.accept rest).sensorBayer = s.sensorBayer := rfl
@[simp] theorem State.accept_sensorBitdepth (rest : List HostEvent) : (s.accept rest).sensorBitdepth = s.sensorBitdepth := rfl
@[simp] theorem State.accept_wbRgainIn (rest : List HostEvent) : (s.accept rest).wbRgainIn = s.wbRgainIn := rfl
@[simp] theorem State.accept_wbBgainIn (rest : List HostEvent) : (s.accept rest).wbBgainIn = s.wbBgainIn := rfl
@[simp] theorem State.accept_wbRgainQ (rest : List HostEvent) : (s.accept rest).wbRgainQ = s.wbRgainQ := rfl
@[simp] theorem State.accept_wbBgainQ (rest : List HostEvent) : (s.accept rest).wbBgainQ = s.wbBgainQ := rfl
@[simp] theorem State.accept_cscCtrl (rest : List HostEvent) : (s.accept rest).cscCtrl = s.cscCtrl := rfl
@[simp] theorem State.accept_cscStd (rest : List HostEvent) : (s.accept rest).cscStd = s.cscStd := rfl
@[simp] theorem State.accept_qIn (rest : List HostEvent) : (s.accept rest).qIn = s.qIn := rfl
@[simp] theorem State.accept_qOut (rest : List HostEvent) : (s.accept rest).qOut = s.qOut := rfl
@[simp] theorem State.accept_qFmt (rest : List HostEvent) : (s.accept rest).qFmt = s.qFmt := rfl
@[simp] theorem State.accept_fin (rest : List HostEvent) : (s.accept rest).fin = s.fin := rfl
@[simp] theorem State.accept_fout (rest : List HostEvent) : (s.accept rest).fout = s.fout := rfl
@[simp] theorem State.accept_draws (rest : List HostEvent) : (s.accept rest).draws = s.draws := rfl
@[simp] theorem State.accept_host (rest : List HostEvent) : (s.accept rest).host = { s.host with pending := rest, index := s.host.index + 1 } := rfl

/-! `State.externalReset` -/

@[simp] theorem State.externalReset_status (rest : List HostEvent) : (s.externalReset rest).status = 0 := rfl
@[simp] theorem State.externalReset_wbCtrl (rest : List HostEvent) : (s.externalReset rest).wbCtrl = 0 := rfl
@[simp] theorem State.externalReset_sensorBayer (rest : List HostEvent) : (s.externalReset rest).sensorBayer = 0 := rfl
@[simp] theorem State.externalReset_sensorBitdepth (rest : List HostEvent) : (s.externalReset rest).sensorBitdepth = 0 := rfl
@[simp] theorem State.externalReset_wbRgainIn (rest : List HostEvent) : (s.externalReset rest).wbRgainIn = 0 := rfl
@[simp] theorem State.externalReset_wbBgainIn (rest : List HostEvent) : (s.externalReset rest).wbBgainIn = 0 := rfl
@[simp] theorem State.externalReset_wbRgainQ (rest : List HostEvent) : (s.externalReset rest).wbRgainQ = 0 := rfl
@[simp] theorem State.externalReset_wbBgainQ (rest : List HostEvent) : (s.externalReset rest).wbBgainQ = 0 := rfl
@[simp] theorem State.externalReset_cscCtrl (rest : List HostEvent) : (s.externalReset rest).cscCtrl = 0 := rfl
@[simp] theorem State.externalReset_cscStd (rest : List HostEvent) : (s.externalReset rest).cscStd = 0 := rfl
@[simp] theorem State.externalReset_qIn (rest : List HostEvent) : (s.externalReset rest).qIn = 0 := rfl
@[simp] theorem State.externalReset_qOut (rest : List HostEvent) : (s.externalReset rest).qOut = 0 := rfl
@[simp] theorem State.externalReset_qFmt (rest : List HostEvent) : (s.externalReset rest).qFmt = 0 := rfl
@[simp] theorem State.externalReset_fin (rest : List HostEvent) : (s.externalReset rest).fin = .unspecified s.draws := rfl
@[simp] theorem State.externalReset_fout (rest : List HostEvent) : (s.externalReset rest).fout = .unspecified (s.draws + 1) := rfl
@[simp] theorem State.externalReset_draws (rest : List HostEvent) : (s.externalReset rest).draws = s.draws + 2 := rfl
@[simp] theorem State.externalReset_host (rest : List HostEvent) : (s.externalReset rest).host = { s.host with pending := rest } := rfl

/-! `gainDraws` -/

@[simp] theorem gainDraws_nan : gainDraws .nan = 1 := rfl
/-- Only a NaN draws a free value (40_quantizer.md R60). -/
theorem gainDraws_of_ne_nan {g : GainIn} (h : g ≠ .nan) : gainDraws g = 0 := by
  cases g <;> first | rfl | exact absurd rfl h

/-! `State.reset` -/

@[simp] theorem State.reset_status : State.reset.status = 0 := rfl
@[simp] theorem State.reset_wbCtrl : State.reset.wbCtrl = 0 := rfl
@[simp] theorem State.reset_sensorBayer : State.reset.sensorBayer = 0 := rfl
@[simp] theorem State.reset_sensorBitdepth : State.reset.sensorBitdepth = 0 := rfl
@[simp] theorem State.reset_wbRgainIn : State.reset.wbRgainIn = 0 := rfl
@[simp] theorem State.reset_wbBgainIn : State.reset.wbBgainIn = 0 := rfl
@[simp] theorem State.reset_wbRgainQ : State.reset.wbRgainQ = 0 := rfl
@[simp] theorem State.reset_wbBgainQ : State.reset.wbBgainQ = 0 := rfl
@[simp] theorem State.reset_cscCtrl : State.reset.cscCtrl = 0 := rfl
@[simp] theorem State.reset_cscStd : State.reset.cscStd = 0 := rfl
@[simp] theorem State.reset_qIn : State.reset.qIn = 0 := rfl
@[simp] theorem State.reset_qOut : State.reset.qOut = 0 := rfl
@[simp] theorem State.reset_qFmt : State.reset.qFmt = 0 := rfl
@[simp] theorem State.reset_fin : State.reset.fin = .unspecified 0 := rfl
@[simp] theorem State.reset_fout : State.reset.fout = .unspecified 1 := rfl
@[simp] theorem State.reset_draws : State.reset.draws = 2 := rfl
@[simp] theorem State.reset_host : State.reset.host = { pending := [], index := 0, returned := [] } := rfl

end Sys2Proof.Machine
end

