-- ==== Sys2Proof/Laws/Quantizer.lean ====
section
/-! SUPPORT. What `quantize` answers, and what `QUANT` can do. -/

namespace Sys2Proof.Machine

theorem maxCode_lt (i f : Nat) : maxCode i f < 2 ^ (i + f) := by
  have := Nat.two_pow_pos (i + f)
  simp only [maxCode]; omega

/-- `quantize` answers a code of the format (40_quantizer.md R57). -/
theorem quantize_code_lt (g : GainIn) (i f draw : Nat) : (quantize g i f draw).code < 2 ^ (i + f) := by
  have hm := maxCode_lt i f
  have hp := Nat.two_pow_pos (i + f)
  cases g with
  | finite x =>
    simp only [quantize]
    split
    · exact hp
    · split
      · exact hm
      · simp only [maxCode] at *; omega
  | posInf => exact hm
  | negInf => exact hp
  | nan => exact Nat.mod_lt _ hp

/-- The scaled floor of a non-negative rational is non-negative. -/
theorem floorScaled_nonneg {x : ℚ} (hx : 0 ≤ x) (f : Nat) : 0 ≤ floorScaled x f :=
  Int.floor_nonneg.mpr (by positivity)

/-- The floor stays below 2^(I+F) exactly for the gains below 2^I (40_quantizer.md R58, R59). -/
theorem floorScaled_lt_iff (x : ℚ) (i f : Nat) : floorScaled x f < 2 ^ (i + f) ↔ x < 2 ^ i := by
  have hf : (0 : ℚ) < 2 ^ f := by positivity
  rw [floorScaled, Int.floor_lt]
  push_cast
  rw [pow_add]
  exact mul_lt_mul_iff_of_pos_right hf

theorem quantizeGain_code_lt (s : State) (b : BitVec 64) (i f : Nat) : (s.quantizeGain b i f).code < 2 ^ (i + f) :=
  quantize_code_lt _ _ _ _

theorem redQuantized_code_lt (s : State) : s.redQuantized.code < 2 ^ 24 := quantizeGain_code_lt _ _ _ _

theorem blueQuantized_code_lt (s : State) : s.blueQuantized.code < 2 ^ 24 := quantizeGain_code_lt _ _ _ _

/-- Everything `QUANT` can do. -/
theorem execQuant_cases {i f : Nat} {s t : State} (h : execQuant i f s = .next t) :
    (formatLegal i f ∧
      t = (s.afterQuantize (decodeGain s.qIn)).writeQuant (s.quantizeGain s.qIn i f) i f) ∨
    (¬formatLegal i f ∧ t = s.raise .illegalOperation) := by
  simp only [execQuant] at h
  split at h
  · exact .inl ⟨‹_›, by simpa using h.symm⟩
  · exact .inr ⟨‹_›, by simpa using h.symm⟩

end Sys2Proof.Machine
end

