-- ==== Sys2Proof/Laws/GainApplier.lean ====
section
/-! SUPPORT. The range of an output sample of the gain applier, its frame, and what `WBAPPLY` can do. -/

namespace Sys2Proof.Machine

theorem depthMax_nonneg (bd : Nat) : 0 ≤ depthMax bd := by
  have : (0 : Int) < 2 ^ bd := by positivity
  simp only [depthMax]; omega

/-- Every output sample is within [0, 2^BD − 1] (41_gain_applier.md R72). -/
theorem wbSample_lt (g : TileGain) (p qr qb bd : Nat) : wbSample g p qr qb bd < 2 ^ bd := by
  have hd := depthMax_nonneg bd
  have key : ∀ x : Int, (clip x 0 (depthMax bd)).toNat < 2 ^ bd := by
    intro x
    have h := clip_mem (x := x) hd
    have hc : ((2 ^ bd : Nat) : Int) = 2 ^ bd := by push_cast; rfl
    simp only [depthMax] at h ⊢
    omega
  cases g <;> exact key _

/-- A green sample within the range is unchanged (41_gain_applier.md R72). -/
theorem wbGreen_of_le {p bd : Nat} (h : p ≤ 2 ^ bd - 1) : wbGreen p bd = p := by
  have hp := Nat.two_pow_pos bd
  have hc : ((2 ^ bd : Nat) : Int) = 2 ^ bd := by push_cast; rfl
  rw [wbGreen, clip_of_mem (by omega) (by simp only [depthMax]; omega)]
  rfl

/-- The output frame of a legal input frame is legal when the depth fits the container (41_gain_applier.md R72). -/
theorem wbFrame_wf {x : Frame} (hx : x.wf = true) (p : BayerPattern) (qr qb : Nat) {bd : Nat}
    (hb : bd ≤ x.container.bits) : (wbFrame x p qr qb bd).wf = true := by
  have hd := Frame.wf_descriptor hx
  refine Frame.build_wf hd.1 hd.2.1 (by decide) ?_
  intro r c k _ _ _
  exact lt_of_lt_of_le (wbSample_lt _ _ _ _ _) (Nat.pow_le_pow_right (by decide) hb)

/-- The sample of the output frame at (r, c) (41_gain_applier.md R72). -/
theorem wbFrame_sample? {x : Frame} {r c : Nat} (hr : r < x.height) (hc : c < x.width) (p : BayerPattern)
    (qr qb bd : Nat) : (wbFrame x p qr qb bd).sample? r c 0 =
      some (wbSample (tileGain p r c) (x.sample r c 0) qr qb bd) :=
  Frame.sample?_build hr hc Nat.zero_lt_one

/-- Everything `WBAPPLY` can do. -/
theorem execWbapply_cases {s t : State} (h : execWbapply s = .next t) :
    (s.wbCtrl = 0 ∧ t = s.passThrough) ∨
    (s.wbCtrl ≠ 0 ∧ s.fin.frame.channels ≠ 1 ∧ t = s.raise .shapeMismatch) ∨
    (s.wbCtrl ≠ 0 ∧ s.fin.frame.channels = 1 ∧ BayerPattern.ofCode s.sensorBayer = none ∧
      t = s.raise .invalidPattern) ∨
    (s.wbCtrl ≠ 0 ∧ s.fin.frame.channels = 1 ∧ (∃ p, BayerPattern.ofCode s.sensorBayer = some p) ∧
      ¬depthLegal s.sensorBitdepth.toNat s.fin.frame.container ∧ t = s.raise .illegalOperation) ∨
    (∃ p, s.wbCtrl ≠ 0 ∧ s.fin.frame.channels = 1 ∧ BayerPattern.ofCode s.sensorBayer = some p ∧
      depthLegal s.sensorBitdepth.toNat s.fin.frame.container ∧
      t = s.afterGains.writeGains s.redQuantized s.blueQuantized
        (wbFrame s.fin.frame p s.redQuantized.code s.blueQuantized.code s.sensorBitdepth.toNat)) := by
  simp only [execWbapply, State.applyGains] at h
  split at h
  · exact .inl ⟨‹_›, by simpa using h.symm⟩
  · split at h
    · exact .inr (.inl ⟨‹_›, ‹_›, by simpa using h.symm⟩)
    · split at h
      · exact .inr (.inr (.inl ⟨‹_›, not_not.mp ‹_›, ‹_›, by simpa using h.symm⟩))
      · split at h
        · exact .inr (.inr (.inr (.inr ⟨_, ‹_›, not_not.mp ‹_›, ‹_›, ‹_›, by simpa using h.symm⟩)))
        · exact .inr (.inr (.inr (.inl ⟨‹_›, not_not.mp ‹_›, ⟨_, ‹_›⟩, ‹_›, by simpa using h.symm⟩)))

/-- The codes SENSOR_BAYER may hold for a recognised pattern (30_encoding.md R50). -/
theorem ofCode_eq_none_iff : ∀ code : BitVec 8, BayerPattern.ofCode code = none ↔ 3 < code.toNat := by
  decide +kernel

end Sys2Proof.Machine
end

