-- ==== Sys2Proof/Laws/MatrixConverter.lean ====
section
/-! SUPPORT. The range of an output component of the matrix converter, its frame, and what `Y2R` can do. -/

namespace Sys2Proof.Machine

/-- Every output component is 0 to 255 (42_matrix_converter.md R83). -/
theorem cscOut_lt (acc : Int) : cscOut acc < 2 ^ 8 := by
  have h := clip_mem (x := asr acc Config.cscShift) (lo := 0) (hi := Config.cscOutMax) (by decide)
  simp only [cscOut, Config.cscOutMax] at *
  omega

theorem pixelChannel_lt {t : Triple Nat} {b k : Nat} (h₀ : t.t0 < b) (h₁ : t.t1 < b) (h₂ : t.t2 < b) :
    pixelChannel t k < b := by
  simp only [pixelChannel]; split <;> assumption

/-- The output frame of a legal input frame is legal (42_matrix_converter.md R85). -/
theorem cscFrame_wf {x : Frame} (hx : x.wf = true) (sel : BitVec 8) : (cscFrame x sel).wf = true := by
  have hd := Frame.wf_descriptor hx
  refine Frame.build_wf hd.1 hd.2.1 (by decide) ?_
  intro r c k _ _ _
  exact pixelChannel_lt (cscOut_lt _) (cscOut_lt _) (cscOut_lt _)

/-- The sample of the output frame at (r, c, k) (42_matrix_converter.md R85). -/
theorem cscFrame_sample? {x : Frame} {r c k : Nat} (hr : r < x.height) (hc : c < x.width) (hk : k < 3)
    (sel : BitVec 8) : (cscFrame x sel).sample? r c k =
      some (pixelChannel (cscPixel sel (x.sample r c 0) (x.sample r c 1) (x.sample r c 2)) k) :=
  Frame.sample?_build hr hc hk

/-- Everything `Y2R` can do. -/
theorem execY2r_cases {s t : State} (h : execY2r s = .next t) :
    (s.cscCtrl = 0 ∧ t = s.passThrough) ∨
    (s.cscCtrl ≠ 0 ∧ ¬cscShape s.fin.frame ∧ t = s.raise .shapeMismatch) ∨
    (s.cscCtrl ≠ 0 ∧ cscShape s.fin.frame ∧
      t = { s with fout := .holds (cscFrame s.fin.frame s.cscStd) }.succeed) := by
  simp only [execY2r] at h
  split at h
  · exact .inl ⟨‹_›, by simpa using h.symm⟩
  · split at h
    · exact .inr (.inr ⟨‹_›, ‹_›, by simpa using h.symm⟩)
    · exact .inr (.inl ⟨‹_›, ‹_›, by simpa using h.symm⟩)

end Sys2Proof.Machine
end

