-- ==== Sys2Proof/Laws/Exec.lean ====
section
/-! SUPPORT. How a command ends, whichever it is, and the registers by their numbers. -/

namespace Sys2Proof.Machine

/-- A command ends either by one error completion, which is then everything it did, or with ERR = 0
(60_exceptions.md R95, R100). -/
theorem exec_cases {i : Instr} {s t : State} (h : exec i s = .next t) :
    (∃ c : Completion, t = s.raise c ∧ (c = .invalidPattern ∨ c = .shapeMismatch ∨ c = .illegalOperation)) ∨
      statusErr t.status = 0 := by
  cases i with
  | quant i f =>
    rcases execQuant_cases h with ⟨_, rfl⟩ | ⟨_, rfl⟩
    · exact .inr (by simp)
    · exact .inl ⟨_, rfl, by simp⟩
  | wbapply =>
    rcases execWbapply_cases h with ⟨_, rfl⟩ | ⟨_, _, rfl⟩ | ⟨_, _, _, rfl⟩ | ⟨_, _, _, _, rfl⟩ |
      ⟨_, _, _, _, _, rfl⟩
    · exact .inr (by simp)
    · exact .inl ⟨_, rfl, by simp⟩
    · exact .inl ⟨_, rfl, by simp⟩
    · exact .inl ⟨_, rfl, by simp⟩
    · exact .inr (by simp)
  | y2r =>
    rcases execY2r_cases h with ⟨_, rfl⟩ | ⟨_, _, rfl⟩ | ⟨_, _, rfl⟩
    · exact .inr (by simp)
    · exact .inl ⟨_, rfl, by simp⟩
    · exact .inr (by simp)

/-- Each implemented number names one register (10_state.md R10). -/
theorem RegName.number_of_ofNumber : ∀ (n : RegNumber) (r : RegName), RegName.ofNumber n = some r → n = r.number := by
  intro n r h
  simp only [RegName.ofNumber] at h
  split at h <;> simp only [Option.some.injEq, reduceCtorEq] at h <;> subst h <;>
    exact BitVec.eq_of_toNat_eq ‹_›

@[simp] theorem RegName.ofNumber_number (r : RegName) : RegName.ofNumber r.number = some r := by cases r <;> decide

/-- Numbers 0x0E to 0xFF are not implemented (10_state.md R10). -/
theorem RegName.ofNumber_unimplemented : ∀ n : RegNumber, 0x0E ≤ n.toNat → RegName.ofNumber n = none := by
  intro n h
  simp only [RegName.ofNumber]
  split <;> first | omega | rfl

/-- A memory operation keeps the canonical form of both frame memories: every command does. -/
theorem exec_keeps_memory_wf {i : Instr} {s t : State} (h : exec i s = .next t) (hf : s.fin.wf = true)
    (ho : s.fout.wf = true) : t.fin.wf = true ∧ t.fout.wf = true := by
  cases i with
  | quant i f =>
    rcases execQuant_cases h with ⟨_, rfl⟩ | ⟨_, rfl⟩ <;> exact ⟨by simpa using hf, by simpa using ho⟩
  | wbapply =>
    rcases execWbapply_cases h with ⟨_, rfl⟩ | ⟨_, _, rfl⟩ | ⟨_, _, _, rfl⟩ | ⟨_, _, _, _, rfl⟩ |
      ⟨p, _, _, _, hd, rfl⟩
    · exact ⟨by simpa using hf, by simpa using hf⟩
    · exact ⟨by simpa using hf, by simpa using ho⟩
    · exact ⟨by simpa using hf, by simpa using ho⟩
    · exact ⟨by simpa using hf, by simpa using ho⟩
    · exact ⟨by simpa using hf, by simpa using wbFrame_wf (Memory.frame_wf hf) p _ _ hd.2⟩
  | y2r =>
    rcases execY2r_cases h with ⟨_, rfl⟩ | ⟨_, _, rfl⟩ | ⟨_, _, rfl⟩
    · exact ⟨by simpa using hf, by simpa using hf⟩
    · exact ⟨by simpa using hf, by simpa using ho⟩
    · exact ⟨by simpa using hf, by simpa using cscFrame_wf (Memory.frame_wf hf) s.cscStd⟩

/-- Loading a frame keeps the canonical form: a transaction carries a Frame of 20_memory.md R31. -/
theorem loadFrame_wf (f : Frame.Legal) : (Memory.holds f.val).wf = true := f.property

/-- Reset's memories are in canonical form. -/
theorem reset_memory_wf : State.reset.fin.wf = true ∧ State.reset.fout.wf = true := ⟨rfl, rfl⟩

end Sys2Proof.Machine
end

