-- ==== Sys2Proof/Laws/PerInstr.lean ====
section
/-! SUPPORT. Statements made per instruction, one lemma per constructor of Instr. -/

namespace Sys2Proof

/-- The row of the opcode map an instruction belongs to (30_encoding.md R48). -/
def Laws.TableMatch.row : Instr → OpcodeRow
  | .quant _ _ => quantRow
  | .wbapply => wbapplyRow
  | .y2r => y2rRow

/-- The word of an instruction matches the instruction's row of the opcode map (30_encoding.md R48). -/
def Laws.TableMatch.Statement (i : Instr) : Prop := (Laws.TableMatch.row i).matchesWord (encode i) = true

theorem Laws.TableMatch.quant (i f : Nat) : Laws.TableMatch.Statement (.quant i f) := by
  have h : ∀ a b : BitVec 6,
      (0#12 ++ (a ++ (b ++ 0x01#8)) : BitVec 32) &&& 0xFFF000FF#32 = 0x00000001#32 := by decide +kernel
  simp only [Laws.TableMatch.Statement, Laws.TableMatch.row, OpcodeRow.matchesWord, encode, quantRow, beq_iff_eq]
  exact h _ _

theorem Laws.TableMatch.wbapply : Laws.TableMatch.Statement .wbapply := by
  simp only [Laws.TableMatch.Statement]; decide

theorem Laws.TableMatch.y2r : Laws.TableMatch.Statement .y2r := by
  simp only [Laws.TableMatch.Statement]; decide

end Sys2Proof
end

