-- ==== Sys2Proof/Tests/Slice0.lean ====
section
/-! SUPPORT. The model's own tests. Expected values come from the spec: the worked encodings of 30_encoding.md, the
vectors and programs of 95_test_vectors.md (named in each comment). Then one witness per statement with hypotheses. -/

namespace Sys2Proof.Machine.Tests

/-! ## Well-formedness: an ill-formed term for each check -/

/-- The field IBITS holds 0 to 63 (30_encoding.md R47). -/
theorem test_wf_refuses_wide_i : (Instr.quant 64 0).wf = false ∧ (Instr.quant 63 63).wf = true := by decide

/-- The field FBITS holds 0 to 63 (30_encoding.md R47). -/
theorem test_wf_refuses_wide_f : (Instr.quant 0 64).wf = false := by decide

/-- A frame of 2×1×1 samples in an 8-bit container; and one ill-formed frame for each condition of 20_memory.md R31. -/
theorem test_frame_wf_refuses :
    (Frame.mk 2 1 1 .w8 [[[255]], [[0]]]).wf = true ∧
    (Frame.mk 2 1 1 .w8 [[[255]]]).wf = false ∧
    (Frame.mk 2 1 1 .w8 [[[255]], []]).wf = false ∧
    (Frame.mk 2 1 1 .w8 [[[255]], [[0, 0]]]).wf = false ∧
    (Frame.mk 2 1 1 .w8 [[[256]], [[0]]]).wf = false ∧
    (Frame.mk 65536 0 0 .w8 []).wf = false ∧ (Frame.mk 0 65536 0 .w8 []).wf = false ∧
    (Frame.mk 0 0 256 .w8 []).wf = false := by decide +kernel

/-! ## Decoding: words written out bit by bit from 30_encoding.md R45 and R48 -/

/-- ZERO 0, FBITS 8, IBITS 16, OPC 1. -/
theorem test_decode_quant : decode 0b000000000000_001000_010000_00000001#32 = .command (.quant 16 8) := by decide

/-- OPC 2, every other bit 0. -/
theorem test_decode_wbapply : decode 0b000000000000_000000_000000_00000010#32 = .command .wbapply := by decide

/-- OPC 3, every other bit 0. -/
theorem test_decode_y2r : decode 0b000000000000_000000_000000_00000011#32 = .command .y2r := by decide

/-- Rejections by name (30_encoding.md R49; 95_test_vectors.md H1 to H4, Q43). -/
theorem test_decode_rejects :
    decode 0x00000000 = .illegal .unknownOpcode ∧ decode 0x000000FF = .illegal .unknownOpcode ∧
    decode 0x00100003 = .illegal .zeroFieldSet ∧ decode 0x00000102 = .illegal .operandFieldSet := by decide

/-- The opcode table's own numbering (spec/opcode_table.json). -/
theorem test_decodeTableWord :
    decodeTableWord 32 0x00021001 = some (.quant 16 8) ∧ decodeTableWord 32 2 = some .wbapply ∧
    decodeTableWord 32 3 = some .y2r ∧ decodeTableWord 32 4 = none := by decide

/-! ## The functions under the commands -/

/-- The code of a binary64 pattern in a format, with its saturation. -/
def code (b : BitVec 64) (i f : Nat) : Nat × Bool :=
  ((quantize (decodeGain b) i f 0).code, (quantize (decodeGain b) i f 0).sat)

/-- 95_test_vectors.md Q5, Q9, Q15, Q16, Q17, Q18. -/
theorem test_quantize_u16_8 :
    code 0x40EFFFFFEF9DB22D 16 8 = (0xFFFFFF, false) ∧ code 0x3FEFF7CED916872B 16 8 = (255, false) ∧
    code 0x00000000000007E8 16 8 = (0, false) ∧ code 0x7E37E43C8800759C 16 8 = (0xFFFFFF, true) ∧
    code 0xBFE0000000000000 16 8 = (0, true) ∧ code 0x8000000000000000 16 8 = (0, false) := by decide +kernel

/-- 95_test_vectors.md Q19, Q20, Q25, Q26, Q27, Q28, Q29, Q30. -/
theorem test_quantize_formats :
    code 0x7FF0000000000000 16 8 = (0xFFFFFF, true) ∧ code 0xFFF0000000000000 16 8 = (0, true) ∧
    code 0x3FEFAE147AE147AE 0 4 = (15, false) ∧ code 0x3FF0000000000000 0 4 = (15, true) ∧
    code 0x401F99999999999A 4 0 = (7, false) ∧ code 0x41EFFFFFFFF00000 32 0 = (0xFFFFFFFF, false) ∧
    code 0x41F0000000000000 32 0 = (0xFFFFFFFF, true) ∧ code 0x3FE0000000000000 0 32 = (0x80000000, false) := by
  decide +kernel

/-- 95_test_vectors.md 2.1, round trip of the bit string of Q2, and `split(317, 8) = (1, 61)`. -/
theorem test_bitstr :
    String.ofList (bitstr 317 16 8) = "000000000000000100111101" ∧ parseBits (bitstr 317 16 8) = 317 ∧
    splitCode 317 8 = (1, 61) ∧ reconstruct 317 8 = 1.23828125 := by decide +kernel

/-- 95_test_vectors.md X1, X4, X5, X7. -/
theorem test_wbPixel :
    wbPixel 101 317 10 = 125 ∧ wbPixel 3 384 10 = 4 ∧ wbPixel 1023 257 10 = 1023 ∧
    wbPixel 65535 0xFFFFFF 16 = 65535 := by decide +kernel

/-- 95_test_vectors.md M3, M6, M7 with both matrices; 42_matrix_converter.md R81's −13 >>a 6 = −1. -/
theorem test_cscPixel :
    cscPixel 1 0 0 0 = ⟨0, 75, 0⟩ ∧ cscPixel 2 0 0 0 = ⟨0, 112, 0⟩ ∧ cscPixel 1 0 255 255 = ⟨207, 0, 249⟩ ∧
    cscPixel 1 81 90 240 = ⟨255, 23, 0⟩ ∧ cscPixel 255 81 90 240 = ⟨13, 56, 245⟩ ∧ asr (-13) 6 = -1 := by
  decide +kernel

/-- 30_encoding.md R53 to R55, with the patterns of 95_test_vectors.md Q2, Q5, Q8, Q15, Q16, Q17. -/
theorem test_script :
    asmText (.quant 16 8) = "QUANT 16, 8" ∧ quantU16F8 = .quant 16 8 ∧ nearestBinary64 1.24 = 0x3FF3D70A3D70A3D7 ∧
    nearestBinary64 65535.998 = 0x40EFFFFFEF9DB22D ∧ nearestBinary64 0.0039 = 0x3F6FF2E48E8A71DE ∧
    nearestBinary64 (1 / 10 ^ 320) = 0x00000000000007E8 ∧ nearestBinary64 (10 ^ 300) = 0x7E37E43C8800759C ∧
    nearestBinary64 (-0.5) = 0xBFE0000000000000 := by decide +kernel

/-! ## One step each, on small states -/

/-- The next state of an outcome, if it is one. -/
def nextOf : Host.Outcome State Fault Refusal → Option State
  | .next t => some t
  | .fault _ => none
  | .refused _ => none

/-- The frame of 95_test_vectors.md W6. -/
def frameW6 : Frame := ⟨4, 4, 1, .w16,
  [[[101], [202], [303], [404]], [[505], [606], [707], [808]], [[909], [1010], [1023], [0]], [[1], [2], [3], [4]]]⟩

/-- The frame of 95_test_vectors.md P3. -/
def frameP3 : Frame := ⟨2, 2, 3, .w8, [[[16, 128, 128], [235, 128, 128]], [[81, 90, 240], [145, 54, 34]]]⟩

/-- An enabled gain applier with the gains 1.24 and 2.671875 at bit depth 10 (95_test_vectors.md P2). -/
def gainState (pattern : BitVec 8) (fin : Frame) : State :=
  { State.reset with
    wbCtrl := 1, sensorBayer := pattern, sensorBitdepth := 10
    wbRgainIn := 0x3FF3D70A3D70A3D7, wbBgainIn := 0x4005600000000000, fin := .holds fin }

/-- An enabled matrix converter (95_test_vectors.md P3). -/
def matrixState (sel : BitVec 8) (fin : Frame) : State :=
  { State.reset with cscCtrl := 1, cscStd := sel, fin := .holds fin }

/-- A state with a gain in Q_IN. -/
def quantState (b : BitVec 64) : State := { State.reset with qIn := b }

/-- A state whose next transaction is a write to CMD. -/
def withCommand (s : State) (v : HostValue) : State :=
  { s with host := { s.host with pending := [.transaction (.regWrite 0x01 v)] } }

/-- 95_test_vectors.md Q2 and P1 steps 1 to 5. -/
theorem test_quant : (nextOf (exec (.quant 16 8) (quantState 0x3FF3D70A3D70A3D7))).map
    (fun t => (t.qOut, t.qFmt, t.status)) = some (0x0000013D, 0x210, 0x00) := by decide +kernel

/-- 95_test_vectors.md Q4 and P1 steps 6 to 9: SAT_Q; then Q39, an illegal format. -/
theorem test_quant_clamps :
    (nextOf (exec (.quant 16 8) (quantState 0x40F0005000000000))).map (fun t => (t.qOut, t.status)) =
      some (0x00FFFFFF, 0x20) ∧
    (nextOf (exec (.quant 0 0) (quantState 0x40F0005000000000))).map (fun t => (t.qOut, t.status)) =
      some (0, 0x04) := by decide +kernel

/-- 95_test_vectors.md W6d: pattern gbrg over a 4×4 frame. -/
theorem test_wbapply_gbrg : (nextOf (exec .wbapply (gainState 3 frameW6))).map
    (fun t => (t.fout.frame.data, t.wbRgainQ, t.wbBgainQ, t.status)) =
      some ([[[101], [539], [303], [1023]], [[625], [606], [875], [808]], [[909], [1023], [1023], [0]],
        [[1], [2], [3], [4]]], 0x00013D, 0x0002AC, 0x00) := by decide +kernel

/-- 95_test_vectors.md W20 and W21: the order of the tests; nothing but ERR is written. -/
theorem test_wbapply_errors :
    (nextOf (exec .wbapply { gainState 9 frameP3 with sensorBitdepth := 0 })).map (·.status) = some 0x03 ∧
    (nextOf (exec .wbapply { gainState 9 frameW6 with sensorBitdepth := 0 })).map (·.status) = some 0x01 ∧
    (nextOf (exec .wbapply { gainState 0 frameW6 with sensorBitdepth := 17 })).map
      (fun t => (t.status, t.fout, t.wbRgainQ)) = some (0x04, .unspecified 1, 0) := by decide +kernel

/-- 95_test_vectors.md P3 step 8: selector 1. -/
theorem test_y2r_matrix_a : (nextOf (exec .y2r (matrixState 1 frameP3))).map (fun t => (t.fout.frame.data, t.status)) =
    some ([[[0, 0, 0], [253, 253, 253]], [[255, 23, 0], [0, 214, 0]]], 0x00) := by decide +kernel

/-- 95_test_vectors.md P3 step 11: selector 2; then M20, a one-channel frame. -/
theorem test_y2r_matrix_b :
    (nextOf (exec .y2r (matrixState 2 frameP3))).map (·.fout.frame.data) =
      some [[[0, 0, 0], [219, 219, 208]], [[13, 56, 245], [28, 209, 0]]] ∧
    (nextOf (exec .y2r (matrixState 2 frameW6))).map (fun t => (t.status, t.fout)) = some (0x03, .unspecified 1) := by
  decide +kernel

/-- 95_test_vectors.md H5, H6, H8, H11: the host port. -/
theorem test_host_port :
    (nextOf (step (withCommand State.reset 0x100000002))).map (fun t => (t.fout, t.status, t.host.index)) =
      some (.unspecified 0, 0x00, 1) ∧
    nextOf (perform (.regWrite 0x00 0xFF) State.reset) = some State.reset ∧
    (nextOf (perform (.regWrite 0x04 0x2A) State.reset)).map (·.sensorBitdepth) = some 0x0A ∧
    nextOf (perform (.regWrite 0x0E 5) State.reset) = some State.reset := by decide +kernel

/-- A word placed for the next step is run by it, from reset (log 2). -/
theorem test_withFetchWord :
    (nextOf (step (State.reset.withFetchWord 32 0x00000001))).map (·.status) = some 0x04 ∧
    (nextOf (step (State.reset.withFetchWord 32 0x00000002))).map (·.fout) = some (.unspecified 0) ∧
    (nextOf (step (State.reset.withFetchWord 32 0x00000003))).map (·.fout) = some (.unspecified 0) := by
  decide +kernel

/-! ## Witnesses: states and operands that meet the hypotheses of each statement -/

/-- Each clause of `DecoderFollowsOpcodeMap`: a `QUANT` word with every operand bit set, the other two, an illegal
one with the nearest bit. -/
theorem witness_decoderFollowsOpcodeMap :
    (0x000FFF01 : CmdWord) &&& 0xFFF000FF = 0x00000001 ∧
    ((0x00100001 : CmdWord) &&& 0xFFF000FF ≠ 0x00000001 ∧ (0x00100001 : CmdWord) ≠ 2 ∧ (0x00100001 : CmdWord) ≠ 3) ∧
    decode ((0x100000000 : HostValue).extractLsb' 0 32) = .illegal .unknownOpcode := by decide

/-- Each clause of `IllegalWordsEndWithIllegalOperation`; the formats at both ends of the illegal ranges. -/
theorem witness_illegalWords :
    (∃ why, decode 0x00000004 = .illegal why) ∧
    (withCommand State.reset 0x00000004).host.pending = [.transaction (.regWrite 0x01 0x00000004)] ∧
    decode ((0x00000004 : HostValue).extractLsb' 0 32) = .illegal .unknownOpcode ∧
    ((0 : Nat) + 0 = 0 ∧ 32 < 33 + 0 ∧ 32 < 0 + 33 ∧ (33 : Nat) ≤ 63) := by
  exact ⟨⟨.unknownOpcode, by decide⟩, rfl, by decide, by decide⟩

theorem witness_decodeOfEncode :
    (Instr.quant 63 63).wf = true ∧ (Instr.quant 0 0).wf = true ∧ Instr.wbapply.wf = true ∧ Instr.y2r.wf = true := by
  decide

theorem witness_encodeOfDecode :
    decode 0x000FFF01 = .command (.quant 63 63) ∧ decode 0x00000002 = .command .wbapply := by decide

/-- NaN, the two infinities, the largest subnormal, the smallest and the largest normal number. -/
theorem witness_gainDecode :
    ((0x7FF8000000000000 : BitVec 64).extractLsb' 52 11).toNat = 2047 ∧
    (0x7FF8000000000000 : BitVec 64).extractLsb' 0 52 ≠ 0 ∧
    ((0xFFF0000000000000 : BitVec 64).extractLsb' 52 11).toNat = 2047 ∧
    (0xFFF0000000000000 : BitVec 64).extractLsb' 0 52 = 0 ∧
    ((0x000FFFFFFFFFFFFF : BitVec 64).extractLsb' 52 11).toNat = 0 ∧
    0 < ((0x0010000000000000 : BitVec 64).extractLsb' 52 11).toNat ∧
    ((0x7FEFFFFFFFFFFFFF : BitVec 64).extractLsb' 52 11).toNat < 2047 := by decide

/-- 0 and a gain just below 2^I, for the floor and its property. -/
theorem witness_inRangeGain :
    (0 ≤ (0 : ℚ) ∧ (0 : ℚ) < 2 ^ 0) ∧ (0 ≤ (3.99 : ℚ) ∧ (3.99 : ℚ) < 2 ^ 2) ∧ (11 : Nat) < 2 ^ (2 + 2) := by
  norm_num

/-- 2^I itself, and both ends of the last step below it. -/
theorem witness_largeGain :
    0 ≤ (4 : ℚ) ∧ (2 : ℚ) ^ 2 ≤ 4 ∧ ((2 : ℚ) ^ 2 - 1 / 2 ^ 2 ≤ 3.75 ∧ (3.75 : ℚ) < 2 ^ 2) ∧
    ((2 : ℚ) ^ 2 - 1 / 2 ^ 2 ≤ 3.99 ∧ (3.99 : ℚ) < 2 ^ 2) := by norm_num

/-- The narrowest and the widest format, a negative gain, the largest code. -/
theorem witness_outOfDomainGain :
    (1 ≤ 0 + 1 ∧ 0 + 1 ≤ 32) ∧ (1 ≤ 0 + 32 ∧ 0 + 32 ≤ 32) ∧ (-1 / 2 : ℚ) < 0 ∧ 15 ≤ 2 ^ (2 + 2) - 1 := by norm_num

theorem witness_bitString : 317 < 2 ^ (16 + 8) ∧ 0 < 2 ^ (0 + 0) ∧ 15 < 2 ^ (0 + 4) := by decide

/-- Legal formats at both ends; illegal ones at both ends. -/
theorem witness_quantResult :
    (1 ≤ 1 + 0 ∧ 1 + 0 ≤ 32) ∧ (1 ≤ 0 + 32 ∧ 0 + 32 ≤ 32) ∧ 0 + 0 = 0 ∧ 32 < 16 + 17 := by decide

theorem witness_quantTwice :
    decodeGain (quantState 0x3FF3D70A3D70A3D7).qIn ≠ .nan ∧
    ∃ t, exec (.quant 16 8) (quantState 0x3FF3D70A3D70A3D7) = .next t := by
  exact ⟨by decide +kernel, _, rfl⟩

theorem witness_bayerTile : 4 ≤ (4 : BitVec 8).toNat ∧ 4 ≤ (255 : BitVec 8).toNat := by decide

theorem witness_gainedSample : 256 < 257 ∧ 65535 < 2 ^ 16 ∧ 0xFFFFFF < 2 ^ 24 := by decide

/-- A red, a green and a blue pixel of an rggb frame, at the corners; and a triple outside it. -/
theorem witness_gainFrame :
    frameW6.channels = 1 ∧ tileGain .rggb 0 0 = .red ∧ tileGain .rggb 3 3 = .blue ∧ tileGain .rggb 0 3 = .none ∧
    3 < frameW6.height ∧ 3 < frameW6.width ∧ frameW6.sample 0 3 0 ≤ 2 ^ 10 - 1 ∧
    ¬(4 < frameW6.height ∧ 0 < frameW6.width ∧ 0 < 1) := by decide

/-- The hypotheses of `WbapplyResult`; with them `exec` answers next without error, for `WbapplyOutputWithinDepth`. -/
theorem witness_wbapplyResult :
    (gainState 3 frameW6).wbCtrl = 1 ∧ (gainState 3 frameW6).fin.frame.channels = 1 ∧
    BayerPattern.ofCode (gainState 3 frameW6).sensorBayer = some .gbrg ∧
    1 ≤ (gainState 3 frameW6).sensorBitdepth.toNat ∧
    (gainState 3 frameW6).sensorBitdepth.toNat ≤ (gainState 3 frameW6).fin.frame.container.bits ∧
    (nextOf (exec .wbapply (gainState 3 frameW6))).map (fun t => statusErr t.status) = some 0 := by decide +kernel

theorem witness_disabledWbapply : State.reset.wbCtrl = 0 ∧ State.reset.cscCtrl = 0 := by decide

/-- Unit gains on a frame within the depth. -/
theorem witness_unitGains :
    ∃ s : State, s = { gainState 0 frameW6 with wbRgainIn := 0x3FF0000000000000, wbBgainIn := 0x3FF0000000000000 } ∧
      s.wbCtrl = 1 ∧ s.fin.wf = true ∧ s.fin.frame.channels = 1 ∧ BayerPattern.ofCode s.sensorBayer = some .rggb ∧
      1 ≤ s.sensorBitdepth.toNat ∧ s.sensorBitdepth.toNat ≤ s.fin.frame.container.bits ∧
      s.fin.frame.withinDepth s.sensorBitdepth.toNat := by
  refine ⟨_, rfl, by decide, by decide +kernel, by decide, by decide, by decide, by decide, ?_⟩
  have h : ∀ r : Fin 4, ∀ c : Fin 4, ∀ k : Fin 1, frameW6.sample r c k ≤ 2 ^ 10 - 1 := by decide +kernel
  intro r c k hi
  exact h ⟨r, hi.1⟩ ⟨c, hi.2.1⟩ ⟨k, hi.2.2⟩

/-- Selectors other than 1, the extreme samples of `AccumulatorBounds`, a negative accumulator. -/
theorem witness_matrix :
    (0 : BitVec 8) ≠ 1 ∧ (255 : BitVec 8) ≠ 1 ∧ 255 ≤ 255 ∧ (-1 : ℤ) < 0 ∧
    cscAcc Config.matrixA.t2 (cscOffsetVector 255 255 255) = 34831 ∧
    cscAcc Config.matrixA.t2 (cscOffsetVector 0 0 0) = -18464 := by decide

/-- A pixel at the corner of a three-channel frame; and a triple outside it. -/
theorem witness_matrixFrame :
    frameP3.channels = 3 ∧ frameP3.container = .w8 ∧ 1 < frameP3.height ∧ 1 < frameP3.width ∧
    ¬(0 < frameP3.height ∧ 0 < frameP3.width ∧ 3 < 3) := by decide

/-- Each clause of `Y2rResult`: a legal shape; a wrong channel count; a wrong container; disabled. -/
theorem witness_y2rResult :
    (matrixState 1 frameP3).cscCtrl = 1 ∧ (matrixState 1 frameP3).fin.frame.channels = 3 ∧
    (matrixState 1 frameP3).fin.frame.container = .w8 ∧ (matrixState 1 frameW6).fin.frame.channels ≠ 3 ∧
    (matrixState 1 { frameP3 with container := .w16 }).fin.frame.container ≠ .w8 ∧ State.reset.cscCtrl = 0 := by
  decide

/-- An error completion, for `ErrorPriority` and `ErrorWritesOnlyErr`. -/
theorem witness_error :
    decode ((0 : HostValue).extractLsb' 0 32) = .illegal .unknownOpcode ∧
    (nextOf (exec (.quant 0 0) State.reset)).map (fun t => statusErr t.status ≠ 0) = some True := by
  exact ⟨by decide, congrArg some (eq_true (by decide))⟩

/-- Transactions that do not write CMD, for `OldErrorCodeHasNoEffect` and `OnlyCommandsWriteResults`. -/
theorem witness_notCommand :
    (∀ v, Transaction.regWrite 0x02 1 ≠ .regWrite 0x01 v) ∧ (∀ v, Transaction.readFrame ≠ .regWrite 0x01 v) ∧
    (∃ t, perform (.regWrite 0x02 1) State.reset = .next t) ∧ (∃ t, perform .readFrame State.reset = .next t) := by
  exact ⟨fun v h => by simp at h, fun v h => by simp at h, ⟨_, rfl⟩, ⟨_, rfl⟩⟩

/-- A command that answers next, and the three premises of `SatFlagsAreWrittenByOwnersOnly`. -/
theorem witness_satFlags :
    (∃ t, exec .y2r State.reset = .next t) ∧ Instr.y2r ≠ .wbapply ∧ (∀ ib fb, Instr.y2r ≠ .quant ib fb) ∧
    State.reset.wbCtrl = 0 := by
  exact ⟨⟨_, rfl⟩, by decide, fun _ _ h => by simp at h, rfl⟩

/-- Two different states that agree on what each command reads, for `CommandIsFunctionOfWhatItReads`. -/
theorem witness_sameReads :
    sameReads .wbapply (gainState 0 frameW6) { gainState 0 frameW6 with status := 0xFF, fout := .holds frameW6 } ∧
    sameReads .y2r (matrixState 1 frameP3) { matrixState 1 frameP3 with sensorBitdepth := 12, qOut := 5 } ∧
    sameReads (.quant 2 2) (quantState 0) { quantState 0 with fin := .holds frameW6, wbCtrl := 1 } := by
  exact ⟨⟨rfl, rfl, rfl, rfl, rfl, rfl, rfl⟩, ⟨rfl, rfl, rfl, rfl⟩, ⟨rfl, rfl⟩⟩

/-- The clauses of `RegisterWriteRule`: a command, an illegal word, an RW register, an RO one, the first and the last
unimplemented number (these two also for `RegisterReadRule`). -/
theorem witness_registerWrite :
    decode ((0x100000002 : HostValue).extractLsb' 0 32) = .command .wbapply ∧
    decode ((0 : HostValue).extractLsb' 0 32) = .illegal .unknownOpcode ∧
    rwWidth 0x04 = some 5 ∧ ((0x00 : RegNumber) ≠ 0x01 ∧ rwWidth 0x00 = none) ∧
    ((0x0E : RegNumber) ≠ 0x01 ∧ rwWidth 0x0E = none ∧ 0x0E ≤ (0x0E : RegNumber).toNat) ∧
    ((0xFF : RegNumber) ≠ 0x01 ∧ rwWidth 0xFF = none ∧ 0x0E ≤ (0xFF : RegNumber).toNat) := by decide

/-- A frame a transaction can carry, for `FrameLoadAndReadRule`. -/
theorem witness_legalFrame : ∃ f : Frame.Legal, f.val = frameW6 := ⟨⟨frameW6, by decide +kernel⟩, rfl⟩

/-- A command word as the next transaction, and a table word, for `StepRunsDecodedCommand`. -/
theorem witness_stepRunsDecodedCommand :
    (withCommand State.reset 0x00021001).host.pending = .transaction (.regWrite 0x01 0x00021001) :: [] ∧
    decode ((0x00021001 : HostValue).extractLsb' 0 32) = .command (.quant 16 8) ∧
    decodeTableWord 32 0x00021001 = some (.quant 16 8) := by decide

/-- A script line as the next transaction, for `ScriptCommandRunsCommand`. -/
theorem witness_scriptCommand :
    (Instr.quant 16 8).wf = true ∧
    (State.reset.withScript [.cmd (.quant 16 8)]).host.pending =
      .transaction (ScriptLine.cmd (.quant 16 8)).toTransaction :: [] := by
  exact ⟨by decide, rfl⟩

/-- An idle block, and a pending reset, for `IdleBlockExecutesNothing` and `ExternalResetRule`. -/
theorem witness_idleAndReset :
    State.reset.host.pending = [] ∧
    ({ State.reset with host := { State.reset.host with pending := [.reset] } } : State).host.pending =
      .reset :: [] := by decide

/-- A state that meets the invariant and is not the reset state, with a command pending, for `StepKeepsInvariant`. -/
theorem witness_invariant :
    (withCommand (gainState 3 frameW6) 0x00000002).Inv ∧
    ∃ t, step (withCommand (gainState 3 frameW6) 0x00000002) = .next t := by
  exact ⟨⟨by decide +kernel, rfl, rfl, by decide, by decide⟩, _, rfl⟩

end Sys2Proof.Machine.Tests
end

section
/-! The branches of the three commands as equations, and how far the result of a command depends on the state it
starts from. -/

namespace Sys2Proof.Machine

/-! ## What each command answers, branch by branch -/

/-- A legal format: both result registers and SATQ are written (40_quantizer.md R63). -/
theorem execQuant_of_legal {i f : Nat} {s : State} (hf : formatLegal i f) :
    execQuant i f s =
      .next ((s.afterQuantize (decodeGain s.qIn)).writeQuant (s.quantizeGain s.qIn i f) i f) :=
  if_pos hf

/-- An illegal format (40_quantizer.md R63). -/
theorem execQuant_of_not_legal {i f : Nat} {s : State} (hf : ¬formatLegal i f) :
    execQuant i f s = .next (s.raise .illegalOperation) :=
  if_neg hf

/-- A disabled stage (41_gain_applier.md R74). -/
theorem execWbapply_of_disabled {s : State} (hc : s.wbCtrl = 0) : execWbapply s = .next s.passThrough :=
  if_pos hc

/-- A frame of the wrong channel count, tested first (60_exceptions.md R101). -/
theorem execWbapply_of_channels_ne_one {s : State} (hc : s.wbCtrl ≠ 0) (hch : s.fin.frame.channels ≠ 1) :
    execWbapply s = .next (s.raise .shapeMismatch) := by
  rw [execWbapply, if_neg hc, if_pos hch]

/-- An unrecognised pattern, tested second (60_exceptions.md R101). -/
theorem execWbapply_of_no_pattern {s : State} (hc : s.wbCtrl ≠ 0) (hch : s.fin.frame.channels = 1)
    (hp : BayerPattern.ofCode s.sensorBayer = none) : execWbapply s = .next (s.raise .invalidPattern) := by
  rw [execWbapply, if_neg hc, if_neg (not_not.mpr hch), hp]

/-- With a recognised pattern only the depth is left to test (60_exceptions.md R101). -/
theorem execWbapply_of_pattern {s : State} {p : BayerPattern} (hc : s.wbCtrl ≠ 0) (hch : s.fin.frame.channels = 1)
    (hp : BayerPattern.ofCode s.sensorBayer = some p) : execWbapply s = .next (s.applyGains p) := by
  rw [execWbapply, if_neg hc, if_neg (not_not.mpr hch), hp]

/-- A legal depth: the frame is converted and the gain codes are written (41_gain_applier.md R73). -/
theorem State.applyGains_of_depthLegal {s : State} (p : BayerPattern)
    (hd : depthLegal s.sensorBitdepth.toNat s.fin.frame.container) :
    s.applyGains p = s.afterGains.writeGains s.redQuantized s.blueQuantized
      (wbFrame s.fin.frame p s.redQuantized.code s.blueQuantized.code s.sensorBitdepth.toNat) :=
  if_pos hd

/-- An illegal depth, tested last (60_exceptions.md R101). -/
theorem State.applyGains_of_not_depthLegal {s : State} (p : BayerPattern)
    (hd : ¬depthLegal s.sensorBitdepth.toNat s.fin.frame.container) :
    s.applyGains p = s.raise .illegalOperation :=
  if_neg hd

/-- A disabled stage (42_matrix_converter.md R87). -/
theorem execY2r_of_disabled {s : State} (hc : s.cscCtrl = 0) : execY2r s = .next s.passThrough :=
  if_pos hc

/-- A frame of the accepted shape (42_matrix_converter.md R86). -/
theorem execY2r_of_shape {s : State} (hc : s.cscCtrl ≠ 0) (hx : cscShape s.fin.frame) :
    execY2r s = .next { s with fout := .holds (cscFrame s.fin.frame s.cscStd) }.succeed := by
  rw [execY2r, if_neg hc, if_pos hx]

/-- A frame of another shape (42_matrix_converter.md R86). -/
theorem execY2r_of_not_shape {s : State} (hc : s.cscCtrl ≠ 0) (hx : ¬cscShape s.fin.frame) :
    execY2r s = .next (s.raise .shapeMismatch) := by
  rw [execY2r, if_neg hc, if_neg hx]

/-! ## What the quantized gains depend on -/

/-- A quantization depends on the pattern and the format, and on the state through its next draw only (log 5). -/
theorem State.quantizeGain_congr {s s' : State} (hd : s'.draws = s.draws) (b : BitVec 64) (i f : Nat) :
    s'.quantizeGain b i f = s.quantizeGain b i f := by
  rw [State.quantizeGain, State.quantizeGain, hd]

theorem State.redQuantized_congr {s s' : State} (hd : s'.draws = s.draws) (hr : s'.wbRgainIn = s.wbRgainIn) :
    s'.redQuantized = s.redQuantized := by
  rw [State.redQuantized, State.redQuantized, hr, State.quantizeGain_congr hd]

/-- The blue gain is quantized after the red one, so its draw depends on the red gain too (41_gain_applier.md R73). -/
theorem State.blueQuantized_congr {s s' : State} (hd : s'.draws = s.draws) (hr : s'.wbRgainIn = s.wbRgainIn)
    (hb : s'.wbBgainIn = s.wbBgainIn) : s'.blueQuantized = s.blueQuantized := by
  have hdraws : (s'.afterQuantize (decodeGain s'.wbRgainIn)).draws =
      (s.afterQuantize (decodeGain s.wbRgainIn)).draws := by
    rw [State.afterQuantize_draws, State.afterQuantize_draws, hd, hr]
  rw [State.blueQuantized, State.blueQuantized, hb, State.quantizeGain_congr hdraws]

/-! ## Non-interference, command by command (00_scope.md R7, 10_state.md R25 and R27) -/

/-- The results t and t' of a command agree: one completion code and, without an error, the same writes; s is the
state the first run started from. -/
def sameResult (i : Instr) (s t t' : State) : Prop :=
  statusErr t'.status = statusErr t.status ∧ (statusErr t.status = 0 → sameWrites i s t t')

/-- Success is the only completion with code 0 (60_exceptions.md R95). -/
theorem Completion.code_eq_zero_iff (c : Completion) : c.code = 0 ↔ c = .success := by
  cases c <;> decide

/-- One error in both runs: the code is the same, and there are no results to compare. -/
theorem sameResult_raise (i : Instr) (s s' : State) {e : Completion} (he : e ≠ .success) :
    sameResult i s (s.raise e) (s'.raise e) := by
  refine ⟨by simp, fun hz => absurd ?_ he⟩
  rwa [State.raise_status, statusErr_setErr, Completion.code_eq_zero_iff] at hz

theorem execQuant_sameResult {i f : Nat} {s s' : State} (h : sameReads (.quant i f) s s') :
    ∃ t t', execQuant i f s = .next t ∧ execQuant i f s' = .next t' ∧ sameResult (.quant i f) s t t' := by
  obtain ⟨hdraws, hq⟩ := h
  by_cases hf : formatLegal i f
  · refine ⟨_, _, execQuant_of_legal hf, execQuant_of_legal hf, by simp, fun _ => ?_⟩
    rw [hq, State.quantizeGain_congr hdraws]
    simp [sameWrites]
  · exact ⟨_, _, execQuant_of_not_legal hf, execQuant_of_not_legal hf, sameResult_raise _ _ _ (by decide)⟩

/-- With a recognised pattern: the same gain codes, saturation flags and frame, or IllegalOperation in both runs. -/
theorem applyGains_sameResult {s s' : State} (h : sameReads .wbapply s s') (p : BayerPattern) :
    sameResult .wbapply s (s.applyGains p) (s'.applyGains p) := by
  obtain ⟨hdraws, -, -, hbd, hr, hb, hfin⟩ := h
  by_cases hd : depthLegal s.sensorBitdepth.toNat s.fin.frame.container
  · have hd' : depthLegal s'.sensorBitdepth.toNat s'.fin.frame.container := by rwa [hbd, hfin]
    rw [State.applyGains_of_depthLegal p hd, State.applyGains_of_depthLegal p hd', hfin, hbd,
      State.redQuantized_congr hdraws hr, State.blueQuantized_congr hdraws hr hb]
    exact ⟨by simp, fun _ => by simp [sameWrites]⟩
  · have hd' : ¬depthLegal s'.sensorBitdepth.toNat s'.fin.frame.container := by rwa [hbd, hfin]
    rw [State.applyGains_of_not_depthLegal p hd, State.applyGains_of_not_depthLegal p hd']
    exact sameResult_raise _ _ _ (by decide)

theorem execWbapply_sameResult {s s' : State} (h : sameReads .wbapply s s') :
    ∃ t t', execWbapply s = .next t ∧ execWbapply s' = .next t' ∧ sameResult .wbapply s t t' := by
  have ⟨_, hctrl, hbayer, _, _, _, hfin⟩ := h
  by_cases hc : s.wbCtrl = 0
  · refine ⟨_, _, execWbapply_of_disabled hc, execWbapply_of_disabled (hctrl.trans hc), by simp, fun _ => ?_⟩
    exact ⟨hfin, fun hne => absurd hc hne⟩
  have hc' : s'.wbCtrl ≠ 0 := by rwa [hctrl]
  by_cases hch : s.fin.frame.channels = 1
  · have hch' : s'.fin.frame.channels = 1 := by rwa [hfin]
    cases hp : BayerPattern.ofCode s.sensorBayer with
    | none =>
      exact ⟨_, _, execWbapply_of_no_pattern hc hch hp, execWbapply_of_no_pattern hc' hch' (by rwa [hbayer]),
        sameResult_raise _ _ _ (by decide)⟩
    | some p =>
      exact ⟨_, _, execWbapply_of_pattern hc hch hp, execWbapply_of_pattern hc' hch' (by rwa [hbayer]),
        applyGains_sameResult h p⟩
  · exact ⟨_, _, execWbapply_of_channels_ne_one hc hch, execWbapply_of_channels_ne_one hc' (by rwa [hfin]),
      sameResult_raise _ _ _ (by decide)⟩

theorem execY2r_sameResult {s s' : State} (h : sameReads .y2r s s') :
    ∃ t t', execY2r s = .next t ∧ execY2r s' = .next t' ∧ sameResult .y2r s t t' := by
  obtain ⟨-, hctrl, hstd, hfin⟩ := h
  by_cases hc : s.cscCtrl = 0
  · exact ⟨_, _, execY2r_of_disabled hc, execY2r_of_disabled (hctrl.trans hc), by simp, fun _ => hfin⟩
  have hc' : s'.cscCtrl ≠ 0 := by rwa [hctrl]
  by_cases hx : cscShape s.fin.frame
  · refine ⟨_, _, execY2r_of_shape hc hx, execY2r_of_shape hc' (by rwa [hfin]), by simp, fun _ => ?_⟩
    simp [sameWrites, hfin, hstd]
  · exact ⟨_, _, execY2r_of_not_shape hc hx, execY2r_of_not_shape hc' (by rwa [hfin]),
      sameResult_raise _ _ _ (by decide)⟩

/-- Settles O34, command by command: every test a command makes is on what it reads, and so is every value it
writes. -/
theorem commandIsFunctionOfWhatItReads : Obligations.CommandIsFunctionOfWhatItReads := by
  intro i s s' h
  cases i with
  | quant i f => exact execQuant_sameResult h
  | wbapply => exact execWbapply_sameResult h
  | y2r => exact execY2r_sameResult h

end Sys2Proof.Machine
end

section
/-! What a command and a transaction can do, each said once as a relation with its guards; which registers and
memories they leave unchanged. -/

namespace Sys2Proof.Machine

/-! ## Commands -/

/-- What a command `i` can do to the state `s`: one error completion and nothing else (60_exceptions.md R100), the
pass-through of its own disabled stage, or the writes of its unit. Every success carries its guard; which error is
raised when is said by the `_cases` lemma of each command. -/
inductive CommandEffect (s : State) : Instr → State → Prop
  | raised (i : Instr) {c : Completion} (hc : c = .invalidPattern ∨ c = .shapeMismatch ∨ c = .illegalOperation) :
      CommandEffect s i (s.raise c)
  | passedThrough (i : Instr) (hi : i = .wbapply ∧ s.wbCtrl = 0 ∨ i = .y2r ∧ s.cscCtrl = 0) :
      CommandEffect s i s.passThrough
  | quantized {i f : Nat} (hf : formatLegal i f) :
      CommandEffect s (.quant i f)
        ((s.afterQuantize (decodeGain s.qIn)).writeQuant (s.quantizeGain s.qIn i f) i f)
  | gained (p : BayerPattern) (hc : s.wbCtrl ≠ 0) (hch : s.fin.frame.channels = 1)
      (hp : BayerPattern.ofCode s.sensorBayer = some p)
      (hd : depthLegal s.sensorBitdepth.toNat s.fin.frame.container) :
      CommandEffect s .wbapply (s.afterGains.writeGains s.redQuantized s.blueQuantized
        (wbFrame s.fin.frame p s.redQuantized.code s.blueQuantized.code s.sensorBitdepth.toNat))
  | converted (hc : s.cscCtrl ≠ 0) (hx : cscShape s.fin.frame) :
      CommandEffect s .y2r { s with fout := .holds (cscFrame s.fin.frame s.cscStd) }.succeed

theorem commandEffect_of_exec {i : Instr} {s t : State} (h : exec i s = .next t) : CommandEffect s i t := by
  cases i with
  | quant i f =>
    rcases execQuant_cases h with ⟨hf, rfl⟩ | ⟨_, rfl⟩
    · exact .quantized hf
    · exact .raised _ (by simp)
  | wbapply =>
    rcases execWbapply_cases h with ⟨hc, rfl⟩ | ⟨_, _, rfl⟩ | ⟨_, _, _, rfl⟩ | ⟨_, _, _, _, rfl⟩ |
      ⟨p, hc, hch, hp, hd, rfl⟩
    · exact .passedThrough _ (.inl ⟨rfl, hc⟩)
    · exact .raised _ (by simp)
    · exact .raised _ (by simp)
    · exact .raised _ (by simp)
    · exact .gained p hc hch hp hd
  | y2r =>
    rcases execY2r_cases h with ⟨hc, rfl⟩ | ⟨_, _, rfl⟩ | ⟨hc, hx, rfl⟩
    · exact .passedThrough _ (.inr ⟨rfl, hc⟩)
    · exact .raised _ (by simp)
    · exact .converted hc hx

/-- Every command answers next: it reads the same as itself, so `commandIsFunctionOfWhatItReads` gives its run. -/
theorem exec_next (i : Instr) (s : State) : ∃ t, exec i s = .next t := by
  have hreads : sameReads i s s := by cases i <;> simp [sameReads]
  obtain ⟨t, -, ht, -⟩ := commandIsFunctionOfWhatItReads i s s hreads
  exact ⟨t, ht⟩

/-- Settles O35: none of the updates a command is made of touches an RW register, FIN or the host's side. -/
theorem commandsKeepConfigurationAndFin : Obligations.CommandsKeepConfigurationAndFin := by
  intro i s t h
  cases commandEffect_of_exec h with
  | raised | passedThrough | quantized | gained | converted => simp

/-! ## STATUS after a command -/

/-- The completion codes a command leaves in ERR (10_state.md R11, 60_exceptions.md R95). -/
theorem exec_statusErr {i : Instr} {s t : State} (h : exec i s = .next t) :
    statusErr t.status = 0 ∨ statusErr t.status = 1 ∨ statusErr t.status = 3 ∨ statusErr t.status = 4 := by
  rcases exec_cases h with ⟨c, rfl, rfl | rfl | rfl⟩ | h0
  · simp
  · simp
  · simp
  · exact .inl h0

/-- Bits [7:6] are never written (10_state.md R11). -/
theorem exec_statusReserved {i : Instr} {s t : State} (h : exec i s = .next t) :
    statusReserved t.status = statusReserved s.status := by
  cases commandEffect_of_exec h with
  | raised | passedThrough | quantized | gained | converted => simp

/-- SAT_R and SAT_B are written by an enabled `WBAPPLY` that ends without error, and by nothing else
(10_state.md R11). -/
theorem exec_keeps_gainFlags {i : Instr} {s t : State} (h : exec i s = .next t)
    (hi : i ≠ .wbapply ∨ s.wbCtrl = 0 ∨ statusErr t.status ≠ 0) :
    statusSatR t.status = statusSatR s.status ∧ statusSatB t.status = statusSatB s.status := by
  cases commandEffect_of_exec h with
  | raised | passedThrough | quantized | converted => simp
  | gained p hc =>
    have hdisabled : s.wbCtrl = 0 := by simpa using hi
    exact absurd hdisabled hc

/-- SAT_Q is written by a `QUANT` that ends without error, and by nothing else (10_state.md R11). -/
theorem exec_keeps_quantFlag {i : Instr} {s t : State} (h : exec i s = .next t)
    (hi : (∀ ib fb, i ≠ .quant ib fb) ∨ statusErr t.status ≠ 0) :
    statusSatQ t.status = statusSatQ s.status := by
  cases commandEffect_of_exec h with
  | raised | passedThrough | gained | converted => simp
  | quantized => simp at hi

/-- Settles O33, field by field of STATUS. -/
theorem satFlagsAreWrittenByOwnersOnly : Obligations.SatFlagsAreWrittenByOwnersOnly :=
  fun _ _ _ h => ⟨exec_statusErr h, exec_statusReserved h, exec_keeps_gainFlags h, exec_keeps_quantFlag h⟩

/-! ## Transactions -/

/-- What a transaction can do to the state `s`, case by case of 43_host_port.md R89 to R93. -/
inductive TransactionEffect (s : State) : Transaction → State → Prop
  | command {v : HostValue} {i : Instr} {t : State} (hd : decode (commandWord v) = .command i)
      (h : exec i s = .next t) : TransactionEffect s (.regWrite RegName.cmd.number v) t
  | illegalWord {v : HostValue} {why : Illegal} (hd : decode (commandWord v) = .illegal why) :
      TransactionEffect s (.regWrite RegName.cmd.number v) (s.raise .illegalOperation)
  | registerWritten {r : RegName} (v : HostValue) (hr : r ≠ .cmd) :
      TransactionEffect s (.regWrite r.number v) (s.writeReg r v)
  | writeIgnored {n : RegNumber} (v : HostValue) (hn : RegName.ofNumber n = none) :
      TransactionEffect s (.regWrite n v) s
  | registerRead (n : RegNumber) : TransactionEffect s (.regRead n) (s.returns (.value (s.regValue n)))
  | frameLoaded (f : Frame.Legal) : TransactionEffect s (.loadFrame f) { s with fin := .holds f.val }
  | frameRead : TransactionEffect s .readFrame (s.returns (.frame s.fout))

/-- A write to CMD runs the command of its word, or raises (43_host_port.md R93). -/
theorem transactionEffect_of_commandWrite {v : HostValue} {s t : State} (h : commandWrite v s = .next t) :
    TransactionEffect s (.regWrite RegName.cmd.number v) t := by
  unfold commandWrite at h
  split at h
  · exact .command ‹_› h
  · cases h
    exact .illegalWord ‹_›

theorem transactionEffect_of_regWrite {n : RegNumber} {v : HostValue} {s t : State} (h : regWrite n v s = .next t) :
    TransactionEffect s (.regWrite n v) t := by
  unfold regWrite at h
  split at h
  · rw [RegName.number_of_ofNumber n _ ‹_›]
    exact transactionEffect_of_commandWrite h
  · rename_i r hcmd hr
    cases h
    rw [RegName.number_of_ofNumber n r hr]
    exact .registerWritten v hcmd
  · cases h
    exact .writeIgnored v ‹_›

theorem transactionEffect_of_perform {tr : Transaction} {s t : State} (h : perform tr s = .next t) :
    TransactionEffect s tr t := by
  cases tr with
  | regWrite n v => exact transactionEffect_of_regWrite h
  | regRead n => cases h; exact .registerRead n
  | loadFrame f => cases h; exact .frameLoaded f
  | readFrame => cases h; exact .frameRead

/-- A write to CMD answers next, whatever its word (43_host_port.md R93). -/
theorem commandWrite_next (v : HostValue) (s : State) : ∃ t, commandWrite v s = .next t := by
  unfold commandWrite
  split
  · exact exec_next _ s
  · exact ⟨_, rfl⟩

theorem regWrite_next (n : RegNumber) (v : HostValue) (s : State) : ∃ t, regWrite n v s = .next t := by
  unfold regWrite
  split
  · exact commandWrite_next v s
  · exact ⟨_, rfl⟩
  · exact ⟨_, rfl⟩

/-- Every transaction answers next (70_reset_and_hazards.md R116). -/
theorem perform_next (tr : Transaction) (s : State) : ∃ t, perform tr s = .next t := by
  cases tr with
  | regWrite n v => exact regWrite_next n v s
  | regRead | loadFrame | readFrame => exact ⟨_, rfl⟩

/-- Settles O36: without a write to CMD a transaction writes RW registers, FIN and the host's side only. -/
theorem onlyCommandsWriteResults : Obligations.OnlyCommandsWriteResults := by
  intro tr s t hcmd h
  cases transactionEffect_of_perform h with
  | command | illegalWord => exact absurd rfl (hcmd _)
  | registerWritten | writeIgnored | registerRead | frameLoaded | frameRead => simp

end Sys2Proof.Machine
end

section
/-! The invariant of the machine holds at reset, and every command, every transaction and every step keeps it. -/

namespace Sys2Proof.Machine

/-! ## The values at reset -/

/-- STATUS at reset (10_state.md R30). -/
theorem statusLegal_zero : statusLegal 0 := by decide

/-- No `QUANT` has completed (10_state.md R21, R22). -/
theorem resultLegal_zero : resultLegal 0 0 := .inl ⟨rfl, rfl⟩

/-- Settles O47: both memories are free frames, nothing was returned, every register is 0. -/
theorem invariantHoldsAtReset : Obligations.InvariantHoldsAtReset where
  fin := reset_memory_wf.1
  fout := reset_memory_wf.2
  returned := rfl
  status := statusLegal_zero
  result := resultLegal_zero

/-! ## The format register (10_state.md R22) -/

/-- Q_FMT gives the count I back. -/
theorem formatI_formatWord {i : Nat} (f : Nat) (hi : i < 2 ^ 6) : formatI (formatWord i f) = i := by
  rw [formatI, formatWord, BitVec.extractLsb'_append_eq_right, BitVec.toNat_ofNat, Nat.mod_eq_of_lt hi]

/-- Q_FMT gives the count F back. -/
theorem formatF_formatWord (i : Nat) {f : Nat} (hf : f < 2 ^ 6) : formatF (formatWord i f) = f := by
  rw [formatF, formatWord, BitVec.extractLsb'_append_eq_left, BitVec.toNat_ofNat, Nat.mod_eq_of_lt hf]

/-- A code of a legal format agrees with that format (10_state.md R21, R22). -/
theorem resultLegal_formatWord {i f q : Nat} (hf : formatLegal i f) (hq : q < 2 ^ (i + f)) :
    resultLegal (BitVec.ofNat 32 q) (formatWord i f) := by
  have hle : i + f ≤ 32 := hf.2
  refine .inr ?_
  rw [formatI_formatWord f (by omega), formatF_formatWord i (by omega), BitVec.toNat_ofNat]
  exact ⟨hf, (Nat.mod_le _ _).trans_lt hq⟩

/-! ## The invariant, command by command, transaction by transaction, step by step -/

/-- Q_OUT and Q_FMT are written together, by an error-free `QUANT` only (10_state.md R21, R22). -/
theorem exec_keeps_resultLegal {i : Instr} {s t : State} (h : exec i s = .next t)
    (hr : resultLegal s.qOut s.qFmt) : resultLegal t.qOut t.qFmt := by
  cases commandEffect_of_exec h with
  | raised | passedThrough | gained | converted => exact hr
  | quantized hf => exact resultLegal_formatWord hf (quantizeGain_code_lt _ _ _ _)

/-- A command leaves in STATUS only what 10_state.md R11 allows. -/
theorem exec_keeps_statusLegal {i : Instr} {s t : State} (h : exec i s = .next t) (hs : statusLegal s.status) :
    statusLegal t.status :=
  ⟨(exec_statusReserved h).trans hs.1, exec_statusErr h⟩

theorem exec_keeps_host {i : Instr} {s t : State} (h : exec i s = .next t) : t.host = s.host := by
  obtain ⟨-, -, -, -, -, -, -, -, -, hhost⟩ := commandsKeepConfigurationAndFin i s t h
  exact hhost

theorem exec_keeps_inv {i : Instr} {s t : State} (h : exec i s = .next t) (hs : s.Inv) : t.Inv where
  fin := (exec_keeps_memory_wf h hs.fin hs.fout).1
  fout := (exec_keeps_memory_wf h hs.fin hs.fout).2
  returned := by rw [exec_keeps_host h]; exact hs.returned
  status := exec_keeps_statusLegal h hs.status
  result := exec_keeps_resultLegal h hs.result

/-- An illegal word raises IllegalOperation and writes ERR only (30_encoding.md R49). -/
theorem State.Inv.raise_illegalOperation {s : State} (hs : s.Inv) : (s.raise .illegalOperation).Inv :=
  { hs with status := by simpa [statusLegal] using hs.status.1 }

theorem State.Inv.writeReg {s : State} (hs : s.Inv) (r : RegName) (v : HostValue) : (s.writeReg r v).Inv where
  fin := by simpa using hs.fin
  fout := by simpa using hs.fout
  returned := by simpa using hs.returned
  status := by simpa using hs.status
  result := by simpa using hs.result

/-- The host receives a value, or a legal frame (20_memory.md R31). -/
theorem State.Inv.returns {s : State} (hs : s.Inv) {r : Returned} (hr : r.wf = true) : (s.returns r).Inv :=
  { hs with returned := by simpa [hr] using hs.returned }

theorem State.Inv.accept {s : State} (hs : s.Inv) (rest : List HostEvent) : (s.accept rest).Inv :=
  { hs with }

/-- An external reset clears the block and keeps what the host received (70_reset_and_hazards.md R107, log 9). -/
theorem State.Inv.externalReset {s : State} (hs : s.Inv) (rest : List HostEvent) : (s.externalReset rest).Inv where
  fin := rfl
  fout := rfl
  returned := hs.returned
  status := statusLegal_zero
  result := resultLegal_zero

theorem perform_keeps_inv {tr : Transaction} {s t : State} (h : perform tr s = .next t) (hs : s.Inv) : t.Inv := by
  cases transactionEffect_of_perform h with
  | command _ hexec => exact exec_keeps_inv hexec hs
  | illegalWord => exact hs.raise_illegalOperation
  | registerWritten v => exact hs.writeReg _ v
  | writeIgnored => exact hs
  | registerRead n => exact hs.returns rfl
  | frameLoaded f => exact { hs with fin := loadFrame_wf f }
  | frameRead => exact hs.returns hs.fout

/-- Settles O48, event by event: the transaction keeps the invariant, and so does taking it from the host program. -/
theorem stepKeepsInvariant : Obligations.StepKeepsInvariant := by
  intro s t hs h
  unfold step at h
  split at h
  · cases h; exact hs
  · exact perform_keeps_inv h (hs.accept _)
  · cases h; exact hs.externalReset _

end Sys2Proof.Machine
end

section
/-! A run over the pending host program performs its events one by one and ends with the last. -/

namespace Sys2Proof.Machine

/-- The count of transactions, event by event. -/
theorem transactionCount_cons (e : HostEvent) (rest : List HostEvent) :
    transactionCount (e :: rest) = transactionCount [e] + transactionCount rest := by
  cases e <;> simp [transactionCount, Nat.add_comm]

/-- A transaction's effect leaves the host program and its index alone (10_state.md R24). -/
theorem perform_keeps_program {tr : Transaction} {s t : State} (h : perform tr s = .next t) :
    t.host.pending = s.host.pending ∧ t.host.index = s.host.index := by
  cases transactionEffect_of_perform h with
  | command _ hexec => simp [exec_keeps_host hexec]
  | illegalWord | registerWritten | writeIgnored | registerRead | frameLoaded | frameRead => simp

/-- A step performs exactly the first pending event (10_state.md R24, 43_host_port.md R88). -/
theorem step_performs_head {s : State} {e : HostEvent} {rest : List HostEvent} (hp : s.host.pending = e :: rest) :
    ∃ t, step s = .next t ∧ t.host.pending = rest ∧ t.host.index = s.host.index + transactionCount [e] := by
  cases e with
  | transaction tr =>
    obtain ⟨t, ht⟩ := perform_next tr (s.accept rest)
    exact ⟨t, by rw [step, hp]; exact ht, perform_keeps_program ht⟩
  | reset => exact ⟨s.externalReset rest, by rw [step, hp], rfl, rfl⟩

/-- One step of a run, once the step is known. -/
theorem run_succ {k : Nat} {s t : State} (h : step s = .next t) :
    Host.Core.run Sys2Proof.core (k + 1) s = Host.Core.run Sys2Proof.core k t := by
  have hstep : Sys2Proof.core.step s = .next t := h
  simp only [Host.Core.run, hstep]

/-- Settles O44, by induction on the pending events. -/
theorem runEndsWithLastTransaction : Obligations.RunEndsWithLastTransaction := by
  intro s
  induction hp : s.host.pending generalizing s with
  | nil => exact ⟨s, rfl, hp, rfl⟩
  | cons e rest ih =>
    obtain ⟨t, hstep, htp, hti⟩ := step_performs_head hp
    obtain ⟨u, hrun, hup, hui⟩ := ih t htp
    refine ⟨u, (run_succ hstep).trans hrun, hup, ?_⟩
    rw [hui, hti, Nat.add_assoc, ← transactionCount_cons]

end Sys2Proof.Machine
end

section
/-! The binary64 decode of a gain input (10_state.md R29), and what the block reads as after reset (R30). -/

namespace Sys2Proof.Machine

/-! ## The decode, by the exponent and the fraction -/

theorem gainFraction_eq_zero_iff (b : BitVec 64) : gainFraction b = 0 ↔ b.extractLsb' 0 52 = 0 := by
  rw [gainFraction, ← BitVec.toNat_inj]; rfl

/-- The sign (-1)^s, by the sign bit. -/
theorem neg_one_pow_gainSign (b : BitVec 64) :
    ((-1 : ℚ)) ^ (gainSign b).toNat = if b.getLsbD 63 then -1 else 1 := by
  rw [gainSign]
  cases b.getLsbD 63 <;> simp

theorem decodeGain_of_nan {b : BitVec 64} (he : gainExponent b = 2047) (hf : gainFraction b ≠ 0) :
    decodeGain b = .nan :=
  if_pos ⟨he, hf⟩

theorem decodeGain_of_infinity {b : BitVec 64} (he : gainExponent b = 2047) (hf : gainFraction b = 0) :
    decodeGain b = if gainSign b then .negInf else .posInf := by
  rw [decodeGain, if_neg (fun h => h.2 hf), if_pos he]

/-- Exponent 0: the zeros and the subnormal numbers. -/
theorem decodeGain_of_exponent_zero {b : BitVec 64} (he : gainExponent b = 0) :
    decodeGain b = .finite ((if b.getLsbD 63 then -1 else 1) * gainFraction b / 2 ^ 1074) := by
  have hne : gainExponent b ≠ 2047 := by omega
  rw [decodeGain, if_neg (fun h => hne h.1), if_neg hne, if_pos he, neg_one_pow_gainSign, zpow_neg,
    ← div_eq_mul_inv, zpow_ofNat]

/-- Every other finite exponent: the normal numbers. -/
theorem decodeGain_of_normal {b : BitVec 64} (hpos : 0 < gainExponent b) (hlt : gainExponent b < 2047) :
    decodeGain b =
      .finite ((if b.getLsbD 63 then -1 else 1) * (2 ^ 52 + gainFraction b) * 2 ^ gainExponent b / 2 ^ 1075) := by
  rw [decodeGain, if_neg (fun h => hlt.ne h.1), if_neg hlt.ne, if_neg hpos.ne', neg_one_pow_gainSign,
    zpow_sub₀ two_ne_zero, zpow_natCast, zpow_ofNat, mul_div_assoc]

/-- Both zeros are Finite(0). -/
theorem decodeGain_of_zero {b : BitVec 64} (he : gainExponent b = 0) (hf : gainFraction b = 0) :
    decodeGain b = .finite 0 := by
  rw [decodeGain_of_exponent_zero he, hf, Nat.cast_zero, mul_zero, zero_div]

/-- Settles O6, class by class of binary64. -/
theorem gainDecodeIsBinary64 : Obligations.GainDecodeIsBinary64 := by
  refine ⟨fun b he hf => ?_, fun b he hf => ?_, fun b he => ?_, fun b hpos hlt => ?_, ?_, ?_⟩
  · exact decodeGain_of_nan he ((gainFraction_eq_zero_iff b).not.mpr hf)
  · rw [decodeGain_of_infinity he ((gainFraction_eq_zero_iff b).mpr hf), gainSign]
    cases b.getLsbD 63 <;> rfl
  · exact decodeGain_of_exponent_zero he
  · exact decodeGain_of_normal hpos hlt
  · exact decodeGain_of_zero (by decide) (by decide)
  · exact decodeGain_of_zero (by decide) (by decide)

/-! ## The block after reset -/

/-- Every register number reads 0, the unimplemented ones too (10_state.md R30, 43_host_port.md R90). -/
theorem regValue_reset (n : RegNumber) : State.reset.regValue n = 0 := by
  unfold State.regValue
  split
  · rename_i r _
    cases r <;> rfl
  · rfl

/-- The gain pattern of reset. -/
theorem decodeGain_zero : decodeGain 0 = .finite 0 := decodeGain_of_zero (by decide) (by decide)

/-- Settles O45, from the registers' zeros. -/
theorem resetValues : Obligations.ResetValues :=
  ⟨regValue_reset, rfl, rfl, rfl, rfl, rfl, decodeGain_zero, decodeGain_zero, decodeGain_zero, rfl, 0, 1, rfl, rfl⟩

end Sys2Proof.Machine
end

section
/-! The bit depth of the gain applier's output frame (20_memory.md R35, R36). -/

namespace Sys2Proof.Machine

/-- The gain applier's output frame is within the bit depth, whatever its input (20_memory.md R36). -/
theorem wbFrame_withinDepth (x : Frame) (p : BayerPattern) (qr qb bd : Nat) :
    (wbFrame x p qr qb bd).withinDepth bd := by
  rintro r c k ⟨hr, hc, hk⟩
  have hsample : (wbFrame x p qr qb bd).sample r c k = wbSample (tileGain p r c) (x.sample r c 0) qr qb bd :=
    Frame.sample_build hr hc hk
  rw [hsample]
  exact Nat.le_sub_one_of_lt (wbSample_lt _ _ _ _ _)

/-- An error and the pass-through being excluded, FOUT holds the gained frame of FIN, for some pattern
(41_gain_applier.md R73). -/
theorem exec_wbapply_fout {s t : State} (hc : s.wbCtrl ≠ 0) (h : exec .wbapply s = .next t)
    (he : statusErr t.status = 0) :
    ∃ p, t.fout.frame =
      wbFrame s.fin.frame p s.redQuantized.code s.blueQuantized.code s.sensorBitdepth.toNat := by
  cases commandEffect_of_exec h with
  | raised _ hraised => rcases hraised with rfl | rfl | rfl <;> simp at he
  | passedThrough _ hdisabled => exact absurd (by simpa using hdisabled) hc
  | gained p => exact ⟨p, rfl⟩

/-- Settles O23, from the frame that an enabled, error-free `WBAPPLY` leaves in FOUT. -/
theorem wbapplyOutputWithinDepth : Obligations.WbapplyOutputWithinDepth := by
  intro s t hc h he
  obtain ⟨p, hfout⟩ := exec_wbapply_fout (by simp [hc]) h he
  rw [hfout]
  exact ⟨wbFrame_withinDepth _ _ _ _ _, rfl, rfl, rfl, rfl⟩

end Sys2Proof.Machine
end

section
/-! The decoder case by case, a command word by its fields, and the encoder as the decoder's inverse on the legal
words. -/

namespace Sys2Proof

/-! ## A command word by its fields -/

/-- The row of `QUANT` fixes OPC and ZERO and leaves the two counts free (30_encoding.md R48). -/
theorem quantMask_eq_iff (w : CmdWord) :
    w &&& 0xFFF000FF#32 = 0x00000001#32 ↔ w.extractLsb' 0 8 = 0x01#8 ∧ w.extractLsb' 20 12 = 0#12 := by
  constructor
  · intro h
    have hopc : (w &&& 0xFFF000FF#32).extractLsb' 0 8 = w.extractLsb' 0 8 := by
      rw [BitVec.extractLsb'_and]; exact BitVec.and_allOnes
    have hzero : (w &&& 0xFFF000FF#32).extractLsb' 20 12 = w.extractLsb' 20 12 := by
      rw [BitVec.extractLsb'_and]; exact BitVec.and_allOnes
    rw [← hopc, ← hzero, h]
    exact ⟨rfl, rfl⟩
  · rintro ⟨hopc, hzero⟩
    have hmask : w &&& 0xFFF000FF#32 = w.extractLsb' 20 12 ++ (0#6 ++ (0#6 ++ w.extractLsb' 0 8)) :=
      quantMask_fields w
    rw [hmask, hopc, hzero]
    rfl

/-- A word below 256 is its OPC, with every operand bit and every bit of ZERO clear (30_encoding.md R45). -/
theorem eq_ofNat_iff_fields (w : CmdWord) {opc : Nat} (ho : opc < 256) :
    w = BitVec.ofNat 32 opc ↔
      (w.extractLsb' 0 8).toNat = opc ∧ w.extractLsb' 8 12 = 0#12 ∧ w.extractLsb' 20 12 = 0#12 := by
  have hw := w.isLt
  simp only [← BitVec.toNat_inj, BitVec.extractLsb'_toNat, Nat.shiftRight_eq_div_pow, BitVec.toNat_ofNat]
  omega

/-- The word of the `QUANT` that holds a word's counts is the word itself with OPC 1 and ZERO 0. -/
theorem encode_quant_of_fields (w : CmdWord) :
    encode (.quant (ibitsField w) (fbitsField w)) =
      0#12 ++ (w.extractLsb' 14 6 ++ (w.extractLsb' 8 6 ++ 0x01#8)) := by
  simp only [encode, ibitsField, fbitsField, BitVec.ofNat_toNat, BitVec.setWidth_eq]

/-! ## What the decoder answers -/

/-- The words that decode to a command, and to which (30_encoding.md R48, R56). -/
theorem decode_eq_command_iff (w : CmdWord) (i : Instr) :
    decode w = .command i ↔
      (w &&& 0xFFF000FF#32 = 0x00000001#32 ∧ i = .quant (ibitsField w) (fbitsField w)) ∨
        (w = 0x00000002#32 ∧ i = .wbapply) ∨ (w = 0x00000003#32 ∧ i = .y2r) := by
  unfold decode
  simp only [quantRow_matches, wbapplyRow_matches, y2rRow_matches]
  split_ifs with hq hw hy
  · have hw : w ≠ 0x00000002#32 := by rintro rfl; exact absurd hq (by decide)
    have hy : w ≠ 0x00000003#32 := by rintro rfl; exact absurd hq (by decide)
    simp [hq, hw, hy, eq_comm]
  · simp [hw, eq_comm]
  · simp [hy, eq_comm]
  · simp [hq, hw, hy]

/-- The words that decode to no command: they match no row of the opcode map (30_encoding.md R49, R56). -/
theorem decode_illegal_iff (w : CmdWord) :
    (∃ why, decode w = .illegal why) ↔
      w &&& 0xFFF000FF#32 ≠ 0x00000001#32 ∧ w ≠ 0x00000002#32 ∧ w ≠ 0x00000003#32 := by
  unfold decode
  simp only [quantRow_matches, wbapplyRow_matches, y2rRow_matches]
  split_ifs with hq hw hy
  · simp [hq]
  · simp [hw]
  · simp [hy]
  · simp [hq, hw, hy]

/-- The illegal words by their fields: the four cases of 30_encoding.md R49. -/
theorem decode_illegal_iff_fields (w : CmdWord) :
    (∃ why, decode w = .illegal why) ↔
      ((w.extractLsb' 0 8).toNat = 0 ∨ 4 ≤ (w.extractLsb' 0 8).toNat ∨ w.extractLsb' 20 12 ≠ 0 ∨
        (2 ≤ (w.extractLsb' 0 8).toNat ∧ w.extractLsb' 8 12 ≠ 0)) := by
  rw [decode_illegal_iff, ne_eq, quantMask_eq_iff, ne_eq, eq_ofNat_iff_fields w (opc := 2) (by omega), ne_eq,
    eq_ofNat_iff_fields w (opc := 3) (by omega)]
  simp only [ne_eq, BitVec.ofNat_eq_ofNat, ← BitVec.toNat_inj, BitVec.toNat_ofNat]
  omega

/-- The decoder reads back the counts of an encoded `QUANT`, each modulo its field (30_encoding.md R45, R47). -/
theorem decode_encode_quant (i f : Nat) : decode (encode (.quant i f)) = .command (.quant (i % 2 ^ 6) (f % 2 ^ 6)) := by
  obtain ⟨-, hi, hf, -⟩ := encode_quant_fields i f
  have hrow : encode (.quant i f) &&& 0xFFF000FF#32 = 0x00000001#32 :=
    (quantRow_matches _).mp (Laws.TableMatch.quant i f)
  rw [← hi, ← hf]
  exact (decode_eq_command_iff _ _).mpr (.inl ⟨hrow, rfl⟩)

/-! ## The encoder and the decoder are inverse -/

/-- Settles O4, command by command: the counts of a well-formed `QUANT` fit their fields. -/
theorem decodeOfEncode : Obligations.DecodeOfEncode := by
  intro i hwf
  cases i with
  | quant i f =>
    have hfit : i < 2 ^ 6 ∧ f < 2 ^ 6 := by simpa [Instr.wf, Config.qFieldWidth] using hwf
    rw [decode_encode_quant, Nat.mod_eq_of_lt hfit.1, Nat.mod_eq_of_lt hfit.2]
  | wbapply | y2r => decide

/-- The counts read from a word fit their fields. -/
theorem quant_fields_wf (w : CmdWord) : (Instr.quant (ibitsField w) (fbitsField w)).wf = true := by
  simp only [Instr.wf, Bool.and_eq_true, decide_eq_true_eq]
  exact ⟨BitVec.isLt _, BitVec.isLt _⟩

/-- Settles O5: the row of `QUANT` fixes every bit outside its two counts, and the other two rows every bit. -/
theorem encodeOfDecode : Obligations.EncodeOfDecode := by
  intro w i h
  rcases (decode_eq_command_iff w i).mp h with ⟨hrow, rfl⟩ | ⟨rfl, rfl⟩ | ⟨rfl, rfl⟩
  · obtain ⟨hopc, hzero⟩ := (quantMask_eq_iff w).mp hrow
    refine ⟨quant_fields_wf w, ?_⟩
    rw [encode_quant_of_fields, ← hopc, ← hzero, ← word_fields]
  · exact ⟨rfl, rfl⟩
  · exact ⟨rfl, rfl⟩

/-- Settles O1, word by word. -/
theorem workedEncodingsDecode : Obligations.WorkedEncodingsDecode := by
  unfold Obligations.WorkedEncodingsDecode
  decide

end Sys2Proof
end

section
/-! A write to CMD, by what its word decodes to (43_host_port.md R93), and the step that performs it. -/

namespace Sys2Proof.Machine

/-- `raise` writes STATUS.ERR and nothing else (60_exceptions.md R100). -/
theorem State.raise_illegalOperation (s : State) :
    s.raise .illegalOperation = { s with status := setErr s.status 4 } := rfl

theorem commandWrite_of_command {v : HostValue} {i : Instr} (h : decode (commandWord v) = .command i) (s : State) :
    commandWrite v s = exec i s := by
  rw [commandWrite, h]

theorem commandWrite_of_illegal {v : HostValue} {why : Illegal} (h : decode (commandWord v) = .illegal why)
    (s : State) : commandWrite v s = .next (s.raise .illegalOperation) := by
  rw [commandWrite, h]

/-- With a write to CMD next, the step takes the transaction and performs the write (10_state.md R24). -/
theorem step_of_commandWrite {s : State} {v : HostValue} {rest : List HostEvent}
    (hp : s.host.pending = .transaction (.regWrite RegName.cmd.number v) :: rest) :
    step s = commandWrite v (s.accept rest) := by
  rw [step, hp]
  rfl

/-- Settles O2, from the rows a word matches and from `raise`. -/
theorem decoderFollowsOpcodeMap : Obligations.DecoderFollowsOpcodeMap := by
  refine ⟨fun w => ⟨fun hq => ?_, fun hw => ?_, fun hy => ?_, fun hq hw hy => ?_⟩, fun v why s h => ?_⟩
  · exact (decode_eq_command_iff w _).mpr (.inl ⟨hq, rfl⟩)
  · exact (decode_eq_command_iff w _).mpr (.inr (.inl ⟨hw, rfl⟩))
  · exact (decode_eq_command_iff w _).mpr (.inr (.inr ⟨hy, rfl⟩))
  · exact (decode_illegal_iff w).mpr ⟨hq, hw, hy⟩
  · rw [commandWrite_of_illegal h, State.raise_illegalOperation]

/-- Settles O3: the illegal words by their fields, the step that writes one, and `QUANT` with an illegal format. -/
theorem illegalWordsEndWithIllegalOperation : Obligations.IllegalWordsEndWithIllegalOperation := by
  refine ⟨decode_illegal_iff_fields, fun s v rest why hp hd => ?_, fun i f s hi hf hsum => ?_⟩
  · rw [step_of_commandWrite hp, commandWrite_of_illegal hd]
    rfl
  · have hwf : (Instr.quant i f).wf = true := by simp [Instr.wf, Config.qFieldWidth]; omega
    have hformat : ¬formatLegal i f := by simp only [formatLegal, Config.qMaxBits]; omega
    exact ⟨decodeOfEncode _ hwf, execQuant_of_not_legal hformat⟩

/-- The value a script writes for a command carries the command's word (30_encoding.md R55, 43_host_port.md R89). -/
theorem commandWord_commandValue (i : Instr) : commandWord (commandValue i) = encode i := by
  have hlt := (encode i).isLt
  apply BitVec.eq_of_toNat_eq
  rw [commandWord, commandValue, BitVec.extractLsb'_toNat, BitVec.toNat_setWidth, Nat.shiftRight_zero]
  omega

/-- Settles O41: the word that the script line writes decodes to the command. -/
theorem scriptCommandRunsCommand : Obligations.ScriptCommandRunsCommand := by
  refine ⟨rfl, rfl, fun s i rest hwf hp => ?_⟩
  have hd : decode (commandWord (commandValue i)) = .command i := by
    rw [commandWord_commandValue]; exact decodeOfEncode i hwf
  exact (step_of_commandWrite hp).trans (commandWrite_of_command hd _)

end Sys2Proof.Machine
end

section
/-! The Bayer tile: the gain selector repeats with period 2 in both directions (41_gain_applier.md R67, R68). -/

namespace Sys2Proof.Machine

/-- The gain selector depends on the tile position alone. -/
theorem tileGain_of_mod {r c a b : Nat} (p : BayerPattern) (hr : r % 2 = a % 2) (hc : c % 2 = b % 2) :
    tileGain p r c = tileGain p a b := by
  simp only [tileGain, hr, hc]

theorem tileGain_even_even (p : BayerPattern) (r c : Nat) : tileGain p (2 * r) (2 * c) = tileGain p 0 0 :=
  tileGain_of_mod p (by omega) (by omega)

theorem tileGain_even_odd (p : BayerPattern) (r c : Nat) : tileGain p (2 * r) (2 * c + 1) = tileGain p 0 1 :=
  tileGain_of_mod p (by omega) (by omega)

theorem tileGain_odd_even (p : BayerPattern) (r c : Nat) : tileGain p (2 * r + 1) (2 * c) = tileGain p 1 0 :=
  tileGain_of_mod p (by omega) (by omega)

theorem tileGain_odd_odd (p : BayerPattern) (r c : Nat) : tileGain p (2 * r + 1) (2 * c + 1) = tileGain p 1 1 :=
  tileGain_of_mod p (by omega) (by omega)

/-- Settles O16: every pixel's selector is that of its tile position, and the tile's four positions are read off. -/
theorem bayerTileTable : Obligations.BayerTileTable := by
  refine ⟨rfl, rfl, rfl, rfl, fun code h => (ofCode_eq_none_iff code).mpr h, fun r c => ?_, fun p => ?_⟩
  · simp only [tileGain_even_even, tileGain_even_odd, tileGain_odd_even, tileGain_odd_odd]
    decide
  · cases p <;> decide

end Sys2Proof.Machine
end

section
/-! The answer of `quantize` by the range of the gain, and the value of a code (40_quantizer.md R57 to R61, R64). -/

namespace Sys2Proof.Machine

/-! ## One equation per range of the gain -/

theorem maxCode_eq_sub_one (i f : Nat) : (maxCode i f : ℤ) = 2 ^ (i + f) - 1 := by
  rw [maxCode, Nat.cast_sub Nat.one_le_two_pow]
  push_cast
  rfl

/-- The two tests of R59 agree. -/
theorem maxCode_lt_floorScaled_iff (x : ℚ) (i f : Nat) : (maxCode i f : ℤ) < floorScaled x f ↔ 2 ^ i ≤ x := by
  rw [maxCode_eq_sub_one, Int.sub_one_lt_iff, ← not_lt, floorScaled_lt_iff, not_lt]

/-- R58. -/
theorem quantize_finite_of_lt {x : ℚ} {i : Nat} (f draw : Nat) (h₀ : 0 ≤ x) (hlt : x < 2 ^ i) :
    quantize (.finite x) i f draw = ⟨(floorScaled x f).toNat, false⟩ := by
  have hmax : ¬(maxCode i f : ℤ) < floorScaled x f := by rwa [maxCode_lt_floorScaled_iff, not_le]
  simp only [quantize, if_neg h₀.not_gt, if_neg hmax]

/-- R59. -/
theorem quantize_finite_of_ge {x : ℚ} {i : Nat} (f draw : Nat) (hge : 2 ^ i ≤ x) :
    quantize (.finite x) i f draw = ⟨maxCode i f, true⟩ := by
  have h₀ : 0 ≤ x := le_trans (by positivity) hge
  simp only [quantize, if_neg h₀.not_gt, if_pos ((maxCode_lt_floorScaled_iff x i f).mpr hge)]

/-- R60, a negative gain. -/
theorem quantize_finite_of_neg {x : ℚ} (i f draw : Nat) (hx : x < 0) :
    quantize (.finite x) i f draw = ⟨0, true⟩ := if_pos hx

/-- Only a NaN takes its code from the draw (R60). -/
theorem quantize_draw_irrelevant {g : GainIn} (hg : g ≠ .nan) (i f d d' : Nat) :
    quantize g i f d = quantize g i f d' := by
  cases g with
  | nan => exact absurd rfl hg
  | finite _ | posInf | negInf => rfl

theorem quantize_code_le_maxCode (g : GainIn) (i f draw : Nat) : (quantize g i f draw).code ≤ maxCode i f :=
  Nat.le_sub_one_of_lt (quantize_code_lt g i f draw)

/-- The code of an in-range gain is the floor itself, as an integer. -/
theorem quantize_code_of_lt {x : ℚ} {i : Nat} (f draw : Nat) (h₀ : 0 ≤ x) (hlt : x < 2 ^ i) :
    ((quantize (.finite x) i f draw).code : ℤ) = floorScaled x f := by
  rw [quantize_finite_of_lt f draw h₀ hlt, Int.toNat_of_nonneg (floorScaled_nonneg h₀ f)]

/-! ## The floor and the value of a code -/

/-- The last step below 2^I has the largest code as its floor (R59). -/
theorem floorScaled_of_last_step {x : ℚ} {i f : Nat} (hge : 2 ^ i - 1 / 2 ^ f ≤ x) (hlt : x < 2 ^ i) :
    floorScaled x f = maxCode i f := by
  have hf : (0 : ℚ) < 2 ^ f := by positivity
  have hscaled : (2 : ℚ) ^ (i + f) - 1 ≤ x * 2 ^ f :=
    calc (2 : ℚ) ^ (i + f) - 1 = (2 ^ i - 1 / 2 ^ f) * 2 ^ f := by
          rw [sub_mul, one_div_mul_cancel hf.ne', pow_add]
      _ ≤ x * 2 ^ f := mul_le_mul_of_nonneg_right hge hf.le
  have hlow : (maxCode i f : ℤ) ≤ floorScaled x f := by
    rw [maxCode_eq_sub_one, floorScaled, Int.le_floor]
    exact_mod_cast hscaled
  have hhigh : ¬(maxCode i f : ℤ) < floorScaled x f := by rwa [maxCode_lt_floorScaled_iff, not_le]
  omega

/-- The reconstructed value of a code scales back to the code (R61). -/
theorem floorScaled_reconstruct (q f : Nat) : floorScaled (reconstruct q f) f = q := by
  rw [floorScaled, reconstruct, div_mul_cancel₀ _ (by positivity), Int.floor_natCast]

/-- Every code's value is a gain in range (R61). -/
theorem reconstruct_mem {q i f : Nat} (hq : q < 2 ^ (i + f)) : 0 ≤ reconstruct q f ∧ reconstruct q f < 2 ^ i := by
  refine ⟨by rw [reconstruct]; positivity, ?_⟩
  rw [← floorScaled_lt_iff _ i f, floorScaled_reconstruct]
  exact_mod_cast hq

/-! ## The statements of R58, R59, R60 and R64 -/

/-- Settles O7, from the branch of `quantize` an in-range gain takes. -/
theorem inRangeGainQuantizesToFloor : Obligations.InRangeGainQuantizesToFloor := fun x i f draw h₀ hlt =>
  ⟨quantize_code_of_lt f draw h₀ hlt, by rw [quantize_finite_of_lt f draw h₀ hlt]⟩

/-- Settles O8: the two tests agree, and the last step's floor is the largest code. -/
theorem largeGainClampsToMaxCode : Obligations.LargeGainClampsToMaxCode := by
  refine fun x i f draw h₀ => ⟨(maxCode_lt_floorScaled_iff x i f).symm, quantize_finite_of_ge f draw,
    fun hge hlt => ?_⟩
  rw [quantize_finite_of_lt f draw h₀ hlt, floorScaled_of_last_step hge hlt, Int.toNat_natCast, maxCode]

/-- Settles O9: a code of the format is the code of the draw of the same number. -/
theorem outOfDomainGainClamps : Obligations.OutOfDomainGainClamps := by
  refine fun i f _ hle => ⟨fun x draw => quantize_finite_of_neg i f draw, fun _ => rfl, fun _ => rfl,
    fun draw => ⟨quantize_code_le_maxCode .nan i f draw, rfl⟩, fun q hq => ?_⟩
  have hlt : q < 2 ^ (i + f) := by have := Nat.two_pow_pos (i + f); omega
  have hdraw : quantize .nan i f q = ⟨q, true⟩ := by rw [quantize, drawnCode, Nat.mod_eq_of_lt hlt]
  exact ⟨q, hlt.trans_le (Nat.pow_le_pow_right two_pos hle), hdraw⟩

/-- Settles O10: the two bounds of the floor, divided by 2^F, and the floor of a reconstructed code. -/
theorem quantizerFloorProperty : Obligations.QuantizerFloorProperty := by
  refine ⟨fun x i f draw h₀ hlt => ?_, fun q i f draw hq => ?_⟩
  · have hf : (0 : ℚ) < 2 ^ f := by positivity
    have hcode : ((quantize (.finite x) i f draw).code : ℚ) = floorScaled x f := by
      exact_mod_cast quantize_code_of_lt f draw h₀ hlt
    refine ⟨?_, ?_, by rw [quantize_finite_of_lt f draw h₀ hlt]⟩
    · rw [reconstruct, hcode, div_le_iff₀ hf]
      exact Int.floor_le _
    · rw [reconstruct, hcode, sub_lt_iff_lt_add, ← add_div, lt_div_iff₀ hf, add_comm]
      exact Int.lt_floor_add_one _
  · obtain ⟨h₀, hlt⟩ := reconstruct_mem hq
    rw [quantize_finite_of_lt f draw h₀ hlt, floorScaled_reconstruct, Int.toNat_natCast]

end Sys2Proof.Machine
end

section
/-! The bit string of a code, its two parts, and the string of gain 0 (40_quantizer.md R62, R66). -/

namespace Sys2Proof.Machine

theorem bitstr_length (q i f : Nat) : (bitstr q i f).length = i + f := by
  rw [bitstr, List.length_map, List.length_range]

theorem bitstr_getElem? (q : Nat) {i f j : Nat} (hj : j < i + f) :
    (bitstr q i f)[j]? = some (if q.testBit (i + f - 1 - j) then '1' else '0') := by
  rw [bitstr, List.getElem?_map, List.getElem?_range hj, Option.map_some]

/-- The string is the string of the integer part followed by that of the fractional part. -/
theorem bitstr_eq_append (q i f : Nat) : bitstr q i f = bitstr (q / 2 ^ f) i 0 ++ bitstr q 0 f := by
  refine List.ext_getElem? fun j => ?_
  rcases lt_or_ge j i with hj | hj
  · rw [List.getElem?_append_left (by rwa [bitstr_length]), bitstr_getElem? _ (by omega),
      bitstr_getElem? _ (by omega), Nat.testBit_div_two_pow, show i + 0 - 1 - j + f = i + f - 1 - j by omega]
  rw [List.getElem?_append_right (by rwa [bitstr_length]), bitstr_length]
  rcases lt_or_ge j (i + f) with hlt | hge
  · rw [bitstr_getElem? _ hlt, bitstr_getElem? _ (by omega), show 0 + f - 1 - (j - (i + 0)) = i + f - 1 - j by omega]
  · rw [List.getElem?_eq_none (by rwa [bitstr_length]), List.getElem?_eq_none (by rw [bitstr_length]; omega)]

theorem bitstr_take (q i f : Nat) : (bitstr q i f).take i = bitstr (q / 2 ^ f) i 0 := by
  rw [bitstr_eq_append, List.take_left' (by rw [bitstr_length, add_zero])]

theorem bitstr_drop (q i f : Nat) : (bitstr q i f).drop i = bitstr q 0 f := by
  rw [bitstr_eq_append, List.drop_left' (by rw [bitstr_length, add_zero])]

theorem parseBits_concat (cs : List Char) (c : Char) :
    parseBits (cs ++ [c]) = 2 * parseBits cs + (if c = '1' then 1 else 0) := by
  rw [parseBits, List.foldl_append]
  rfl

/-- The last character is the lowest bit. -/
theorem bitstr_succ (q n : Nat) :
    bitstr q (n + 1) 0 = bitstr (q / 2) n 0 ++ [if q.testBit 0 then '1' else '0'] := by
  rw [show bitstr q (n + 1) 0 = bitstr q n 1 from rfl, bitstr_eq_append, pow_one]
  rfl

/-- Parsing n characters gives the low n bits. -/
theorem parseBits_bitstr_integer (q n : Nat) : parseBits (bitstr q n 0) = q % 2 ^ n := by
  induction n generalizing q with
  | zero => rw [pow_zero, Nat.mod_one]; rfl
  | succ n ih =>
    have hbit : (if (if q.testBit 0 then '1' else '0') = '1' then 1 else 0) = q % 2 := by
      rw [Nat.testBit_zero]
      rcases Nat.mod_two_eq_zero_or_one q with h | h <;> simp [h]
    rw [bitstr_succ, parseBits_concat, ih, hbit, pow_succ', Nat.mod_mul, add_comm]

theorem parseBits_bitstr (q i f : Nat) : parseBits (bitstr q i f) = q % 2 ^ (i + f) :=
  parseBits_bitstr_integer q (i + f)

/-- Settles O12: the string parses to its code, and its two parts to the code's two parts. -/
theorem bitStringRoundTrip : Obligations.BitStringRoundTrip := by
  intro q i f hq
  have hparse : parseBits (bitstr q i f) = q := by rw [parseBits_bitstr, Nat.mod_eq_of_lt hq]
  have hint : q / 2 ^ f < 2 ^ i := Nat.div_lt_of_lt_mul (by rwa [← pow_add, add_comm f i])
  refine ⟨bitstr_length q i f, fun j => bitstr_getElem? q, hparse, ?_, ?_, ?_, ?_⟩
  · rw [bitstr_take, parseBits_bitstr, add_zero, Nat.mod_eq_of_lt hint, splitCode]
  · rw [bitstr_drop, parseBits_bitstr, zero_add, splitCode]
  · rw [splitCode, Nat.shiftRight_eq_div_pow]
  · rw [hparse, reconstruct]

/-- Settles O13: the floor of 0 is 0, and 0 has no bit set. -/
theorem zeroGainIsAllZeroBits : Obligations.ZeroGainIsAllZeroBits := by
  refine ⟨fun i f draw => ⟨?_, ?_⟩, ?_⟩
  · rw [quantize_finite_of_lt f draw le_rfl (by positivity), floorScaled, zero_mul, Int.floor_zero, Int.toNat_zero]
  · refine List.eq_replicate_iff.mpr ⟨bitstr_length 0 i f, fun c hc => ?_⟩
    obtain ⟨j, -, rfl⟩ := List.mem_map.mp hc
    rw [Nat.zero_testBit, if_neg Bool.false_ne_true]
  · rintro b (rfl | rfl)
    · exact decodeGain_zero
    · exact decodeGain_of_zero (by decide) (by decide)

end Sys2Proof.Machine
end

section
/-! `QUANT`: its completion, its result, and a second run of it (40_quantizer.md R63, R65). -/

namespace Sys2Proof.Machine

/-- Settles O11: a code of the format for every gain, and the error of `QUANT` by its format alone. -/
theorem quantizeIsTotal : Obligations.QuantizeIsTotal := by
  refine ⟨quantize_code_le_maxCode, fun i f s => ?_⟩
  by_cases hf : formatLegal i f
  · refine ⟨_, execQuant_of_legal hf, ?_⟩
    rw [State.writeQuant_status, statusErr_setErr]
    exact (if_pos hf).symm
  · refine ⟨_, execQuant_of_not_legal hf, ?_⟩
    rw [State.raise_status, statusErr_setErr]
    exact (if_neg hf).symm

/-- Q_OUT holds the whole code of a legal format (10_state.md R21). -/
theorem writeQuant_qOut_toNat (s : State) {q : Quantized} {i f : Nat} (hf : formatLegal i f)
    (hq : q.code < 2 ^ (i + f)) : (s.writeQuant q i f).qOut.toNat = q.code := by
  rw [State.writeQuant_qOut, BitVec.toNat_ofNat, Nat.mod_eq_of_lt]
  exact hq.trans_le (Nat.pow_le_pow_right two_pos hf.2)

/-- Settles O14: the writes of an error-free `QUANT` read back, and the one write of an illegal format. -/
theorem quantResult : Obligations.QuantResult := by
  refine ⟨fun i f s hlo hhi => ?_, fun i f s hbad => ?_⟩
  · have hf : formatLegal i f := ⟨hlo, hhi⟩
    refine ⟨_, s.quantizeGain s.qIn i f, execQuant_of_legal hf, rfl,
      writeQuant_qOut_toNat _ hf (quantizeGain_code_lt _ _ _ _), formatI_formatWord f (by omega),
      formatF_formatWord i (by omega), ?_, ?_, ?_, ?_, ?_, rfl⟩ <;> simp
  · have hf : ¬formatLegal i f := by simp only [formatLegal, Config.qMaxBits]; omega
    exact execQuant_of_not_legal hf

/-- Without a NaN the quantization of a pattern is the same in every state. -/
theorem State.quantizeGain_eq_of_ne_nan {b : BitVec 64} (hb : decodeGain b ≠ .nan) (s s' : State) (i f : Nat) :
    s'.quantizeGain b i f = s.quantizeGain b i f :=
  quantize_draw_irrelevant hb i f _ _

/-- Only a NaN leaves a mark of the draw on the state (log 6). -/
theorem State.afterQuantize_of_ne_nan {g : GainIn} (hg : g ≠ .nan) (s : State) : s.afterQuantize g = s := by
  rw [State.afterQuantize, gainDraws_of_ne_nan hg, add_zero]

theorem setSatQ_setSatQ (st : BitVec 8) (b : Bool) : setSatQ (setSatQ st b) b = setSatQ st b := by
  apply status_ext <;> simp

/-- The same result written twice is written once. -/
theorem State.writeQuant_writeQuant (s : State) (q : Quantized) (i f : Nat) :
    (s.writeQuant q i f).writeQuant q i f = s.writeQuant q i f := by
  have hstatus : setErr (setSatQ (setErr (setSatQ s.status q.sat) 0) q.sat) 0 = setErr (setSatQ s.status q.sat) 0 := by
    rw [← setErr_setSatQ, setErr_setErr, setSatQ_setSatQ]
  exact congrArg (fun st => { s.writeQuant q i f with status := st }) hstatus

/-- The same error raised twice is raised once. -/
theorem State.raise_raise (s : State) (c : Completion) : (s.raise c).raise c = s.raise c :=
  congrArg (fun st => { s with status := st }) (setErr_setErr s.status c.code c.code)

/-- Settles O15: the second `QUANT` computes the first one's result and writes it again. -/
theorem quantTwiceIsQuantOnce : Obligations.QuantTwiceIsQuantOnce := by
  intro i f s t hnan h
  rcases execQuant_cases h with ⟨hf, rfl⟩ | ⟨hf, rfl⟩
  · refine (execQuant_of_legal hf).trans (congrArg _ ?_)
    simp only [State.afterQuantize_of_ne_nan hnan, State.writeQuant_qIn, State.quantizeGain_eq_of_ne_nan hnan s,
      State.writeQuant_writeQuant]
  · exact (execQuant_of_not_legal hf).trans (congrArg _ (State.raise_raise s .illegalOperation))

end Sys2Proof.Machine
end

section
/-! The gain applier sample by sample, and the two completions of `WBAPPLY` that write FOUT
(41_gain_applier.md R69 to R74). -/

namespace Sys2Proof.Machine

/-! ## A sample clipped to the bit depth -/

theorem depthMax_eq_natCast (bd : Nat) : depthMax bd = ((2 ^ bd - 1 : Nat) : ℤ) := by
  rw [depthMax, Nat.cast_sub Nat.one_le_two_pow]
  push_cast
  rfl

/-- The lower limit of the range never acts on an unsigned value (20_memory.md R36). -/
theorem clip_depthMax_natCast (n bd : Nat) : clip n 0 (depthMax bd) = ((min n (2 ^ bd - 1) : Nat) : ℤ) := by
  rw [clip_nonneg (Int.natCast_nonneg n), depthMax_eq_natCast, Nat.cast_min]

/-- On an unsigned value the arithmetic shift is the division of ℕ (00_scope.md R8). -/
theorem asr_natCast (n k : Nat) : asr n k = ((n / 2 ^ k : Nat) : ℤ) := by
  rw [asr]
  push_cast
  rfl

theorem wbPixel_eq_min (p q bd : Nat) : wbPixel p q bd = min (p * q / 2 ^ 8) (2 ^ bd - 1) := by
  rw [wbPixel, ← Nat.cast_mul, asr_natCast, clip_depthMax_natCast, Int.toNat_natCast]
  rfl

theorem wbGreen_eq_min (p bd : Nat) : wbGreen p bd = min p (2 ^ bd - 1) := by
  rw [wbGreen, clip_depthMax_natCast, Int.toNat_natCast]

/-- The floor of the real product of a sample and the value of its gain code (41_gain_applier.md R70). -/
theorem floor_gainProduct (p q : Nat) : ⌊(p : ℚ) * (q / 256)⌋ = ((p * q / 2 ^ 8 : Nat) : ℤ) := by
  have hproduct : (p : ℚ) * (q / 256) = ((p * q : Nat) : ℚ) / ((2 ^ 8 : Nat) : ℚ) := by
    push_cast
    ring
  rw [hproduct, Rat.floor_natCast_div_natCast]
  rfl

/-- Settles O17: both limits being integers, the floor of the clip is the clip of the floor; and a gain above 1 takes
the largest sample to at least itself. -/
theorem gainedSampleIsClippedFloor : Obligations.GainedSampleIsClippedFloor := by
  refine ⟨wbPixel_eq_min, fun p q bd => ?_, fun q bd hq => ?_⟩
  · have hmax : ((2 : ℚ) ^ bd - 1) = (depthMax bd : ℤ) := by rw [depthMax]; push_cast; rfl
    rw [Int.floor_mono.map_min, floor_gainProduct, hmax, Int.floor_intCast, depthMax_eq_natCast, ← Nat.cast_min,
      wbPixel_eq_min]
  · have hgrown : 2 ^ bd - 1 ≤ (2 ^ bd - 1) * q / 2 ^ 8 :=
      (Nat.le_div_iff_mul_le (by decide)).mpr (Nat.mul_le_mul_left _ hq.le)
    rw [wbPixel_eq_min, min_eq_right hgrown]

/-- Settles O18, from the width of the format and of a 16-bit sample. -/
theorem gainProductFitsFortyBits : Obligations.GainProductFitsFortyBits := by
  refine ⟨fun s => ⟨redQuantized_code_lt s, blueQuantized_code_lt s⟩, fun p q hp hq => ?_⟩
  have hproduct : p * q < 2 ^ 16 * 2 ^ 24 := Nat.mul_lt_mul'' hp hq
  exact ⟨hproduct, Nat.div_lt_of_lt_mul hproduct⟩

/-! ## The frame -/

theorem wbFrame_sample {x : Frame} {r c : Nat} (hr : r < x.height) (hc : c < x.width) (p : BayerPattern)
    (qr qb bd : Nat) :
    (wbFrame x p qr qb bd).sample r c 0 = wbSample (tileGain p r c) (x.sample r c 0) qr qb bd :=
  Frame.sample_build hr hc Nat.zero_lt_one

/-- Settles O19, by the gain selector of each pixel. -/
theorem gainFrameSamples : Obligations.GainFrameSamples := by
  intro x p qr qb bd _
  refine ⟨rfl, rfl, rfl, rfl, fun r c hr hc => ?_, fun r c hr hc hgreen hle => ?_,
    fun r c k => Frame.sample?_build_outside⟩
  · refine ⟨fun hred => ?_, fun hblue => ?_, fun hgreen => ?_⟩
    · rw [wbFrame_sample? hr hc, hred]; rfl
    · rw [wbFrame_sample? hr hc, hblue]; rfl
    · rw [wbFrame_sample? hr hc, hgreen, ← wbGreen_eq_min]; rfl
  · rw [wbFrame_sample hr hc, hgreen]
    exact wbGreen_of_le hle

/-- The code of gain 1.0, 2^8, leaves a sample within the range unchanged (41_gain_applier.md R73). -/
theorem wbPixel_unit_of_le {p bd : Nat} (h : p ≤ 2 ^ bd - 1) : wbPixel p 256 bd = p := by
  have hshift : p * 256 / 2 ^ 8 = p := Nat.mul_div_left p (by decide)
  rw [wbPixel_eq_min, hshift, min_eq_left h]

theorem wbSample_unit_of_le (g : TileGain) {p bd : Nat} (h : p ≤ 2 ^ bd - 1) : wbSample g p 256 256 bd = p := by
  cases g with
  | red | blue => exact wbPixel_unit_of_le h
  | none => exact wbGreen_of_le h

/-- Unit codes give back a legal one-channel frame within the bit depth: the two frames agree in every sample. -/
theorem wbFrame_unit {x : Frame} (p : BayerPattern) {bd : Nat} (hx : x.wf = true) (hch : x.channels = 1)
    (hb : bd ≤ x.container.bits) (hdepth : x.withinDepth bd) : wbFrame x p 256 256 bd = x := by
  refine Frame.ext_samples (wbFrame_wf hx p _ _ hb) hx rfl rfl hch.symm rfl ?_
  rintro r c k ⟨hr, hc, hk⟩
  obtain rfl : k = 0 := Nat.lt_one_iff.mp hk
  have hin : x.sample r c 0 ≤ 2 ^ bd - 1 := hdepth r c 0 ⟨hr, hc, by omega⟩
  exact (wbFrame_sample (x := x) hr hc p 256 256 bd).trans (wbSample_unit_of_le _ hin)

/-! ## The command -/

/-- Settles O21, from the disabled branch. -/
theorem disabledWbapplyPassesThrough : Obligations.DisabledWbapplyPassesThrough := by
  intro s hc
  refine ⟨s.passThrough, execWbapply_of_disabled hc, ?_, ?_, ?_, ?_, ?_, ?_, rfl⟩ <;> simp

/-- An enabled `WBAPPLY` whose every test passes (41_gain_applier.md R73). -/
theorem execWbapply_of_legal {s : State} {p : BayerPattern} (hc : s.wbCtrl ≠ 0) (hch : s.fin.frame.channels = 1)
    (hp : BayerPattern.ofCode s.sensorBayer = some p)
    (hd : depthLegal s.sensorBitdepth.toNat s.fin.frame.container) :
    execWbapply s = .next (s.afterGains.writeGains s.redQuantized s.blueQuantized
      (wbFrame s.fin.frame p s.redQuantized.code s.blueQuantized.code s.sensorBitdepth.toNat)) := by
  rw [execWbapply_of_pattern hc hch hp, State.applyGains_of_depthLegal p hd]

/-- WB_RGAIN_Q holds the whole code (10_state.md R17). -/
theorem writeGains_wbRgainQ_toNat (s : State) {qr : Quantized} (qb : Quantized) (out : Frame)
    (h : qr.code < 2 ^ 24) : (s.writeGains qr qb out).wbRgainQ.toNat = qr.code := by
  rw [State.writeGains_wbRgainQ, BitVec.toNat_ofNat, Nat.mod_eq_of_lt h]

/-- WB_BGAIN_Q holds the whole code (10_state.md R17). -/
theorem writeGains_wbBgainQ_toNat (s : State) (qr : Quantized) {qb : Quantized} (out : Frame)
    (h : qb.code < 2 ^ 24) : (s.writeGains qr qb out).wbBgainQ.toNat = qb.code := by
  rw [State.writeGains_wbBgainQ, BitVec.toNat_ofNat, Nat.mod_eq_of_lt h]

/-- The blue gain draws after the red one, so a NaN red gain moves it to another draw (41_gain_applier.md R73). -/
theorem blueDraw_ne_of_nan {s : State} (h : decodeGain s.wbRgainIn = .nan) :
    (s.afterQuantize (decodeGain s.wbRgainIn)).draws ≠ s.draws := by
  rw [State.afterQuantize_draws, h, gainDraws_nan]
  exact Nat.succ_ne_self _

/-- Settles O20, from the branch in which every test passes: the writes read back. -/
theorem wbapplyResult : Obligations.WbapplyResult := by
  intro s p hc hch hp hlo hhi
  have hne : s.wbCtrl ≠ 0 := by simp [hc]
  refine ⟨_, s.redQuantized, s.blueQuantized, execWbapply_of_legal hne hch hp ⟨hlo, hhi⟩, rfl,
    ⟨_, rfl, blueDraw_ne_of_nan⟩, writeGains_wbRgainQ_toNat _ _ _ (redQuantized_code_lt s),
    writeGains_wbBgainQ_toNat _ _ _ (blueQuantized_code_lt s), ?_, ?_, ?_, ?_, ?_, rfl, rfl⟩ <;> simp

/-! ## Unit gains -/

/-- The binary64 pattern of 1.0 (10_state.md R29). -/
theorem decodeGain_one : decodeGain 0x3FF0000000000000 = .finite 1 := by
  have hexponent : gainExponent 0x3FF0000000000000 = 1023 := by decide
  have hfraction : gainFraction 0x3FF0000000000000 = 0 := by decide
  have hsign : (0x3FF0000000000000 : BitVec 64).getLsbD 63 = false := by decide
  rw [decodeGain_of_normal (by omega) (by omega), hexponent, hfraction, hsign, if_neg Bool.false_ne_true, one_mul,
    Nat.cast_zero, add_zero, ← pow_add, div_self (by positivity)]

/-- 1.0 is the value of code 2^8 in U16.8, so that is its code (40_quantizer.md R64). -/
theorem quantize_one (draw : Nat) : quantize (.finite 1) 16 8 draw = ⟨256, false⟩ := by
  have hvalue : reconstruct 256 8 = 1 := by norm_num [reconstruct]
  rw [← hvalue]
  exact quantizerFloorProperty.2 256 16 8 draw (by decide)

/-- Settles O22: both codes are 2^8 by `wbapplyResult`, and unit codes give back the frame. -/
theorem unitGainsLeaveFrameUnchanged : Obligations.UnitGainsLeaveFrameUnchanged := by
  intro s p hc hwf hch hp hlo hhi hdepth hred hblue
  obtain ⟨t, qr, qb, hexec, hqr, ⟨n, hqb, -⟩, hrcode, hbcode, -, -, herr, -, -, hfout, -⟩ :=
    wbapplyResult s p hc hch hp hlo hhi
  rw [hred, decodeGain_one, quantize_one] at hqr
  rw [hblue, decodeGain_one, quantize_one] at hqb
  subst hqr hqb
  refine ⟨t, hexec, ?_, BitVec.eq_of_toNat_eq hrcode, BitVec.eq_of_toNat_eq hbcode, herr⟩
  rw [hfout, wbFrame_unit p (Memory.frame_wf hwf) hch hhi hdepth]

end Sys2Proof.Machine
end

section
/-! The matrix converter: its accumulators, its output components, its frame, and the completions of `Y2R`
(42_matrix_converter.md R77 to R87). -/

namespace Sys2Proof.Machine

/-! ## The six accumulators, as sums of the input (42_matrix_converter.md R78 to R80) -/

section
variable (y cb cr : Nat)

theorem cscAcc_cscOffsetVector (row : Triple Int) : cscAcc row (cscOffsetVector y cb cr) =
    row.t0 * ((y : ℤ) - 16) + row.t1 * ((cb : ℤ) - 128) + row.t2 * ((cr : ℤ) - 128) := rfl

theorem cscAcc_matrixA_t0 : cscAcc Config.matrixA.t0 (cscOffsetVector y cb cr) =
    74 * ((y : ℤ) - 16) + 114 * ((cr : ℤ) - 128) := by
  simp only [cscAcc_cscOffsetVector, Config.matrixA]; omega

theorem cscAcc_matrixA_t1 : cscAcc Config.matrixA.t1 (cscOffsetVector y cb cr) =
    74 * ((y : ℤ) - 16) - 13 * ((cb : ℤ) - 128) - 34 * ((cr : ℤ) - 128) := by
  simp only [cscAcc_cscOffsetVector, Config.matrixA]; omega

theorem cscAcc_matrixA_t2 : cscAcc Config.matrixA.t2 (cscOffsetVector y cb cr) =
    74 * ((y : ℤ) - 16) + 135 * ((cb : ℤ) - 128) := by
  simp only [cscAcc_cscOffsetVector, Config.matrixA]; omega

theorem cscAcc_matrixB_t0 : cscAcc Config.matrixB.t0 (cscOffsetVector y cb cr) =
    64 * ((y : ℤ) - 16) + 87 * ((cb : ℤ) - 128) := by
  simp only [cscAcc_cscOffsetVector, Config.matrixB]; omega

theorem cscAcc_matrixB_t1 : cscAcc Config.matrixB.t1 (cscOffsetVector y cb cr) =
    64 * ((y : ℤ) - 16) - 44 * ((cb : ℤ) - 128) - 20 * ((cr : ℤ) - 128) := by
  simp only [cscAcc_cscOffsetVector, Config.matrixB]; omega

theorem cscAcc_matrixB_t2 : cscAcc Config.matrixB.t2 (cscOffsetVector y cb cr) =
    61 * ((y : ℤ) - 16) + 105 * ((cr : ℤ) - 128) := by
  simp only [cscAcc_cscOffsetVector, Config.matrixB]; omega

end

/-- The bounds of a shifted value, by those of the value (00_scope.md R8). -/
theorem asr_mem {x lo hi : ℤ} {n : Nat} (hlo : lo * 2 ^ n ≤ x) (hhi : x < (hi + 1) * 2 ^ n) :
    lo ≤ asr x n ∧ asr x n ≤ hi := by
  have hn : (0 : ℤ) < 2 ^ n := by positivity
  exact ⟨(Int.le_ediv_iff_mul_le hn).mpr hlo, Int.lt_add_one_iff.mp ((Int.ediv_lt_iff_lt_mul hn).mpr hhi)⟩

/-- Settles O25: each accumulator is a linear sum of samples in 0 to 255, and the widest row of each matrix bounds the
shifted values. -/
theorem accumulatorBounds : Obligations.AccumulatorBounds := by
  rintro y cb cr hy hcb hcr v rfl
  have hA₀ := cscAcc_matrixA_t0 y cb cr
  have hA₁ := cscAcc_matrixA_t1 y cb cr
  have hA₂ := cscAcc_matrixA_t2 y cb cr
  have hB₀ := cscAcc_matrixB_t0 y cb cr
  have hB₁ := cscAcc_matrixB_t1 y cb cr
  have hB₂ := cscAcc_matrixB_t2 y cb cr
  refine ⟨by omega, by omega, by omega, by omega, by omega, by omega, ?_, ?_⟩
  · rintro row (rfl | rfl | rfl) <;> exact asr_mem (by omega) (by omega)
  · rintro row (rfl | rfl | rfl) <;> exact asr_mem (by omega) (by omega)

/-! ## An output component (42_matrix_converter.md R81, R83) -/

theorem cscOut_eq_max_min (acc : ℤ) : cscOut acc = (max 0 (min 255 (acc / 64))).toNat :=
  congrArg Int.toNat (clip_eq_max_min (by decide))

/-- Whatever is not positive clips to 0. -/
theorem clip_zero_of_nonpos {x hi : ℤ} (hx : x ≤ 0) (hhi : 0 ≤ hi) : clip x 0 hi = 0 := by
  rw [clip_eq_max_min hhi, max_eq_left ((min_le_right _ _).trans hx)]

theorem cscOut_of_neg {acc : ℤ} (h : acc < 0) : cscOut acc = 0 :=
  congrArg Int.toNat (clip_zero_of_nonpos (Int.ediv_neg_of_neg_of_pos h (by decide)).le (by decide))

/-- Settles O26: the two roundings agree on a non-negative accumulator, and a negative one gives 0 with either. -/
theorem shiftRoundingIsInvisible : Obligations.ShiftRoundingIsInvisible := by
  refine fun acc => ⟨Nat.le_of_lt_succ (cscOut_lt acc), cscOut_of_neg, ?_⟩
  rcases lt_or_ge acc 0 with hneg | hnonneg
  · have htrunc : Int.tdiv acc 64 ≤ 0 := by
      have h := Int.tdiv_nonneg (neg_nonneg.mpr hneg.le) (show (0 : ℤ) ≤ 64 by decide)
      rwa [Int.neg_tdiv, neg_nonneg] at h
    rw [cscOut_of_neg hneg, clip_zero_of_nonpos htrunc (by decide), Int.toNat_zero]
  · rw [Int.tdiv_eq_ediv_of_nonneg hnonneg, cscOut_eq_max_min, clip_eq_max_min (by decide)]

/-! ## The pixel and the frame (42_matrix_converter.md R84, R85) -/

theorem cscMatrix_of_ne_one {sel : BitVec 8} (h : sel ≠ 1) : cscMatrix sel = Config.matrixB := if_neg h

/-- The offset itself has the zero vector, so every row accumulates 0 (42_matrix_converter.md R84). -/
theorem cscAcc_black (row : Triple Int) : cscAcc row (cscOffsetVector 16 128 128) = 0 := by
  rw [cscAcc_cscOffsetVector]; simp

/-- Settles O24, from the six accumulators and the accumulators of black. -/
theorem matrixPixelFormula : Obligations.MatrixPixelFormula := by
  refine ⟨fun y cb cr => ?_, fun sel y cb cr hsel => ?_, fun sel => ?_⟩
  · rw [cscPixel, show cscMatrix 1 = Config.matrixA from rfl, cscAcc_matrixA_t0, cscAcc_matrixA_t1, cscAcc_matrixA_t2]
    simp only [cscOut_eq_max_min]
  · rw [cscPixel, cscMatrix_of_ne_one hsel, cscAcc_matrixB_t0, cscAcc_matrixB_t1, cscAcc_matrixB_t2]
    simp only [cscOut_eq_max_min]
  · simp only [cscPixel, cscAcc_black]
    rfl

/-- Settles O27, channel by channel of the built frame. -/
theorem matrixFrameSamples : Obligations.MatrixFrameSamples := by
  refine fun x sel _ _ => ⟨rfl, rfl, rfl, rfl, ?_, fun r c k => Frame.sample?_build_outside⟩
  rintro r c hr hc out rfl
  exact ⟨cscFrame_sample? hr hc (by decide) sel, cscFrame_sample? hr hc (by decide) sel,
    cscFrame_sample? hr hc (by decide) sel⟩

/-! ## The command (42_matrix_converter.md R86, R87) -/

/-- Settles O28, branch by branch of `Y2R`. -/
theorem y2rResult : Obligations.Y2rResult := by
  refine ⟨fun s hc hch hsw => ?_, fun s hc hx => ?_, fun s hc => ?_⟩
  · have hne : s.cscCtrl ≠ 0 := by simp [hc]
    exact ⟨_, execY2r_of_shape hne ⟨hch, hsw⟩, rfl, rfl⟩
  · have hne : s.cscCtrl ≠ 0 := by simp [hc]
    exact execY2r_of_not_shape hne (not_and_or.mpr hx)
  · exact ⟨_, execY2r_of_disabled hc, rfl, rfl⟩

/-- Settles O29: neither a test nor a write of `Y2R` reads SENSOR_BITDEPTH. -/
theorem disabledY2rAndFixedDepth : Obligations.DisabledY2rAndFixedDepth := by
  refine ⟨fun s hc => ⟨_, execY2r_of_disabled hc, rfl, by simp⟩, fun s bd => ?_⟩
  by_cases hc : s.cscCtrl = 0
  · exact ⟨_, execY2r_of_disabled hc, execY2r_of_disabled (s := { s with sensorBitdepth := bd }) hc⟩
  by_cases hx : cscShape s.fin.frame
  · exact ⟨_, execY2r_of_shape hc hx, execY2r_of_shape (s := { s with sensorBitdepth := bd }) hc hx⟩
  · exact ⟨_, execY2r_of_not_shape hc hx, execY2r_of_not_shape (s := { s with sensorBitdepth := bd }) hc hx⟩

end Sys2Proof.Machine
end

section
/-! The registers by name: what a register reads after a write to the same and to another register, and the host port's
register transactions by the register's name (43_host_port.md R89, R90). -/

namespace Sys2Proof.Machine

/-! ## The RW registers after `State.writeReg` -/

@[simp] theorem State.writeReg_wbCtrl (s : State) (r : RegName) (v : HostValue) :
    (s.writeReg r v).wbCtrl = if r = .wbCtrl then v.setWidth 1 else s.wbCtrl := by cases r <;> rfl

@[simp] theorem State.writeReg_sensorBayer (s : State) (r : RegName) (v : HostValue) :
    (s.writeReg r v).sensorBayer = if r = .sensorBayer then v.setWidth 8 else s.sensorBayer := by cases r <;> rfl

@[simp] theorem State.writeReg_sensorBitdepth (s : State) (r : RegName) (v : HostValue) :
    (s.writeReg r v).sensorBitdepth = if r = .sensorBitdepth then v.setWidth 5 else s.sensorBitdepth := by
  cases r <;> rfl

@[simp] theorem State.writeReg_wbRgainIn (s : State) (r : RegName) (v : HostValue) :
    (s.writeReg r v).wbRgainIn = if r = .wbRgainIn then v else s.wbRgainIn := by cases r <;> rfl

@[simp] theorem State.writeReg_wbBgainIn (s : State) (r : RegName) (v : HostValue) :
    (s.writeReg r v).wbBgainIn = if r = .wbBgainIn then v else s.wbBgainIn := by cases r <;> rfl

@[simp] theorem State.writeReg_cscCtrl (s : State) (r : RegName) (v : HostValue) :
    (s.writeReg r v).cscCtrl = if r = .cscCtrl then v.setWidth 1 else s.cscCtrl := by cases r <;> rfl

@[simp] theorem State.writeReg_cscStd (s : State) (r : RegName) (v : HostValue) :
    (s.writeReg r v).cscStd = if r = .cscStd then v.setWidth 8 else s.cscStd := by cases r <;> rfl

@[simp] theorem State.writeReg_qIn (s : State) (r : RegName) (v : HostValue) :
    (s.writeReg r v).qIn = if r = .qIn then v else s.qIn := by cases r <;> rfl

/-- CMD and the RO registers store nothing (10_state.md R12, 43_host_port.md R89). -/
theorem State.writeReg_of_not_rw (s : State) {r : RegName} (hr : r.access ≠ .rw) (v : HostValue) :
    s.writeReg r v = s := by
  cases r with
  | status | cmd | wbRgainQ | wbBgainQ | qOut | qFmt => rfl
  | _ => exact absurd rfl hr

/-! ## Reads after writes -/

theorem State.readReg_writeReg_same (s : State) {r : RegName} (hr : r.access = .rw) (v : HostValue) :
    (s.writeReg r v).readReg r = (v.setWidth r.width).setWidth 64 := by
  cases r with
  | status | cmd | wbRgainQ | wbBgainQ | qOut | qFmt => cases hr
  | _ => simp [State.readReg, RegName.width]

theorem State.readReg_writeReg_of_ne (s : State) {r r' : RegName} (h : r' ≠ r) (v : HostValue) :
    (s.writeReg r v).readReg r' = s.readReg r' := by
  cases r' <;> simp [State.readReg, h.symm]

theorem RegName.width_le (r : RegName) : r.width ≤ 64 := by cases r <;> decide

/-- Of the written value an RW register keeps the low bits, as many as its width. -/
theorem State.readReg_writeReg_same_toNat (s : State) {r : RegName} (hr : r.access = .rw) (v : HostValue) :
    ((s.writeReg r v).readReg r).toNat = v.toNat % 2 ^ r.width := by
  have hlt : v.toNat % 2 ^ r.width < 2 ^ 64 :=
    (Nat.mod_lt _ (Nat.two_pow_pos _)).trans_le (Nat.pow_le_pow_right Nat.two_pos r.width_le)
  rw [s.readReg_writeReg_same hr, BitVec.toNat_setWidth, BitVec.toNat_setWidth, Nat.mod_eq_of_lt hlt]

/-! ## Register numbers -/

@[simp] theorem State.regValue_number (s : State) (r : RegName) : s.regValue r.number = s.readReg r := by
  rw [State.regValue, RegName.ofNumber_number]

theorem State.regValue_of_unimplemented (s : State) {n : RegNumber} (hn : RegName.ofNumber n = none) :
    s.regValue n = 0 := by
  rw [State.regValue, hn]

/-- A write to one register changes what no other number reads. -/
theorem State.regValue_writeReg_of_ne (s : State) {r : RegName} {m : RegNumber} (hm : m ≠ r.number) (v : HostValue) :
    (s.writeReg r v).regValue m = s.regValue m := by
  cases h : RegName.ofNumber m with
  | none => rw [State.regValue_of_unimplemented _ h, State.regValue_of_unimplemented _ h]
  | some r' =>
    obtain rfl := RegName.number_of_ofNumber m r' h
    have hne : r' ≠ r := fun heq => hm (congrArg RegName.number heq)
    rw [State.regValue_number, State.regValue_number, State.readReg_writeReg_of_ne s hne]

/-- The widths of the statement are those of the model's RW registers (10_state.md R10). -/
theorem rwWidth_number (r : RegName) : rwWidth r.number = if r.access = .rw then some r.width else none := by
  cases r <;> rfl

theorem rwWidth_of_unimplemented : ∀ n : RegNumber, RegName.ofNumber n = none → rwWidth n = none := by
  decide +kernel

theorem rwWidth_eq_some_iff {n : RegNumber} {w : Nat} :
    rwWidth n = some w ↔ ∃ r : RegName, n = r.number ∧ r.access = .rw ∧ r.width = w := by
  refine ⟨fun hw => ?_, ?_⟩
  · cases h : RegName.ofNumber n with
    | none => simp [rwWidth_of_unimplemented n h] at hw
    | some r =>
      obtain rfl := RegName.number_of_ofNumber n r h
      exact ⟨r, rfl, by simpa [rwWidth_number] using hw⟩
  · rintro ⟨r, rfl, hr, rfl⟩
    rw [rwWidth_number, if_pos hr]

/-! ## `RegWrite` by the register it names -/

theorem regWrite_number {r : RegName} (hr : r ≠ .cmd) (v : HostValue) (s : State) :
    regWrite r.number v s = .next (s.writeReg r v) := by
  cases r with
  | cmd => exact absurd rfl hr
  | _ => rfl

theorem regWrite_of_unimplemented {n : RegNumber} (hn : RegName.ofNumber n = none) (v : HostValue) (s : State) :
    regWrite n v s = .next s := by
  rw [regWrite, hn]

/-- A write that reaches neither CMD nor an RW register is ignored. -/
theorem regWrite_of_rwWidth_none {n : RegNumber} (hn : n ≠ RegName.cmd.number) (hw : rwWidth n = none) (v : HostValue)
    (s : State) : regWrite n v s = .next s := by
  cases h : RegName.ofNumber n with
  | none => exact regWrite_of_unimplemented h v s
  | some r =>
    obtain rfl := RegName.number_of_ofNumber n r h
    have hcmd : r ≠ .cmd := fun heq => hn (congrArg RegName.number heq)
    have hro : r.access ≠ .rw := by simpa [rwWidth_number] using hw
    rw [regWrite_number hcmd, s.writeReg_of_not_rw hro]

/-- Settles O37: CMD by its decoded word, an RW register by the reads after the write, every other number ignored. -/
theorem registerWriteRule : Obligations.RegisterWriteRule := by
  refine ⟨fun v s i hd => ?_, fun v s why hd => ?_, fun n v s w hw => ?_, fun n v s hn hw => ?_⟩
  · exact commandWrite_of_command hd s
  · exact commandWrite_of_illegal hd s
  · obtain ⟨r, rfl, hr, rfl⟩ := rwWidth_eq_some_iff.mp hw
    have hcmd : r ≠ .cmd := by rintro rfl; cases hr
    have hread : ((s.writeReg r v).regValue r.number).toNat = v.toNat % 2 ^ r.width := by
      rw [State.regValue_number, s.readReg_writeReg_same_toNat hr]
    exact ⟨s.writeReg r v, regWrite_number hcmd v s, hread, fun m hm => s.regValue_writeReg_of_ne hm v, by simp⟩
  · exact regWrite_of_rwWidth_none hn hw v s

/-- Settles O38, register by register. -/
theorem registerReadRule : Obligations.RegisterReadRule := fun n s =>
  ⟨rfl, s.regValue_number .status, s.regValue_number .cmd, s.regValue_number .wbCtrl, s.regValue_number .sensorBayer,
    s.regValue_number .sensorBitdepth, s.regValue_number .wbRgainIn, s.regValue_number .wbBgainIn,
    s.regValue_number .wbRgainQ, s.regValue_number .wbBgainQ, s.regValue_number .cscCtrl, s.regValue_number .cscStd,
    s.regValue_number .qIn, s.regValue_number .qOut, s.regValue_number .qFmt,
    fun hn => s.regValue_of_unimplemented (RegName.ofNumber_unimplemented n hn)⟩

end Sys2Proof.Machine
end

section
/-! The frame transactions (43_host_port.md R91, R92), and the step by the event it performs. -/

namespace Sys2Proof.Machine

/-- Settles O39: the loaded frame is held whole, and what is returned is FOUT itself. -/
theorem frameLoadAndReadRule : Obligations.FrameLoadAndReadRule :=
  ⟨fun f s => ⟨{ s with fin := .holds f.val }, rfl, Memory.holds_frame f.val, rfl⟩, fun s => ⟨s.fout, rfl, rfl⟩⟩

/-- A table word is read by the decoder as the value written to CMD. -/
theorem decodeTableWord_eq_some_iff {nbits w : Nat} {i : Instr} :
    decodeTableWord nbits w = some i ↔ decode (commandWord (tableValue nbits w)) = .command i := by
  unfold decodeTableWord
  split
  · rename_i hd; simp [hd]
  · rename_i hd; simp [hd]

/-- Settles O40: the step performs the write to CMD, which runs the command of its word. -/
theorem stepRunsDecodedCommand : Obligations.StepRunsDecodedCommand := by
  refine ⟨fun s v rest i hp hd => ?_, fun s nbits w i hd => ?_⟩
  · exact (step_of_commandWrite hp).trans (commandWrite_of_command hd _)
  · have hp : (s.withFetchWord nbits w).host.pending =
        .transaction (.regWrite RegName.cmd.number (tableValue nbits w)) :: s.host.pending := rfl
    exact (step_of_commandWrite hp).trans (commandWrite_of_command (decodeTableWord_eq_some_iff.mp hd) _)

/-- Settles O43: an idle step keeps the state, and a pending event is performed whole. -/
theorem everyStepAnswersNext : Obligations.EveryStepAnswersNext := by
  intro s
  cases hp : s.host.pending with
  | nil => exact ⟨s, by rw [step, hp]⟩
  | cons e rest =>
    obtain ⟨t, hstep, -, -⟩ := step_performs_head hp
    exact ⟨t, hstep⟩

end Sys2Proof.Machine
end

section
/-! Error completions: which one a command reports (60_exceptions.md R101), what it writes (R100), and that the code of
an earlier command reaches no later one (R103). -/

namespace Sys2Proof.Machine

/-! ## The completion code of each command, by the order of its tests (60_exceptions.md R101) -/

/-- A recognised code of SENSOR_BAYER is 0 to 3 (30_encoding.md R50). -/
theorem not_three_lt_of_ofCode_eq_some {code : BitVec 8} {p : BayerPattern} (h : BayerPattern.ofCode code = some p) :
    ¬3 < code.toNat := by
  rw [← ofCode_eq_none_iff, h]
  exact Option.some_ne_none p

/-- The depths an enabled `WBAPPLY` rejects (41_gain_applier.md R73). -/
theorem not_depthLegal_iff {bd : Nat} {sw : Container} : ¬depthLegal bd sw ↔ bd < 1 ∨ sw.bits < bd := by
  simp only [depthLegal]; omega

theorem execWbapply_statusErr {s t : State} (h : execWbapply s = .next t) :
    statusErr t.status =
      if s.wbCtrl = 0 then 0
      else if s.fin.frame.channels ≠ 1 then 3
      else if 3 < s.sensorBayer.toNat then 1
      else if s.sensorBitdepth.toNat < 1 ∨ s.fin.frame.container.bits < s.sensorBitdepth.toNat then 4
      else 0 := by
  rcases execWbapply_cases h with ⟨hc, rfl⟩ | ⟨hc, hch, rfl⟩ | ⟨hc, hch, hp, rfl⟩ | ⟨hc, hch, ⟨p, hp⟩, hd, rfl⟩ |
    ⟨p, hc, hch, hp, hd, rfl⟩
  · rw [if_pos hc]
    simp
  · rw [if_neg hc, if_pos hch]
    simp
  · have hcode := (ofCode_eq_none_iff _).mp hp
    rw [if_neg hc, if_neg (not_not.mpr hch), if_pos hcode]
    simp
  · have hcode := not_three_lt_of_ofCode_eq_some hp
    rw [if_neg hc, if_neg (not_not.mpr hch), if_neg hcode, if_pos (not_depthLegal_iff.mp hd)]
    simp
  · have hcode := not_three_lt_of_ofCode_eq_some hp
    rw [if_neg hc, if_neg (not_not.mpr hch), if_neg hcode, if_neg (not_depthLegal_iff.not_right.mp hd)]
    simp

theorem execY2r_statusErr {s t : State} (h : execY2r s = .next t) :
    statusErr t.status =
      if s.cscCtrl = 0 then 0
      else if s.fin.frame.channels ≠ 3 ∨ s.fin.frame.container ≠ .w8 then 3
      else 0 := by
  rcases execY2r_cases h with ⟨hc, rfl⟩ | ⟨hc, hx, rfl⟩ | ⟨hc, hx, rfl⟩
  · rw [if_pos hc]
    simp
  · rw [if_neg hc, if_pos (not_and_or.mp hx)]
    simp
  · rw [if_neg hc]
    simp [hx]

/-- Settles O30, from the guards under which each command answers what it answers. -/
theorem errorPriority : Obligations.ErrorPriority := by
  refine ⟨fun v why s hd => ?_, fun s => ?_, fun s => ?_, fun i f s => ?_⟩
  · exact ⟨_, commandWrite_of_illegal hd s, by simp⟩
  · obtain ⟨t, h⟩ := exec_next .wbapply s
    exact ⟨t, h, execWbapply_statusErr h⟩
  · obtain ⟨t, h⟩ := exec_next .y2r s
    exact ⟨t, h, execY2r_statusErr h⟩
  · obtain ⟨t, h, herr⟩ := quantizeIsTotal.2 i f s
    have hillegal : (i + f = 0 ∨ 32 < i + f) ↔ ¬(1 ≤ i + f ∧ i + f ≤ 32) := by omega
    exact ⟨t, h, by simp only [herr, hillegal, ite_not]⟩

/-! ## What an error completion writes (60_exceptions.md R100) -/

/-- Settles O31: a command that does not end with ERR = 0 has raised, and raising writes ERR only. -/
theorem errorWritesOnlyErr : Obligations.ErrorWritesOnlyErr := by
  intro i s t h he
  refine ⟨(exec_statusErr h).resolve_left he, ?_⟩
  rcases exec_cases h with ⟨c, rfl, -⟩ | h0
  · rw [State.raise_status, statusErr_setErr]; rfl
  · exact absurd h0 he

/-! ## An old code in ERR (60_exceptions.md R103) -/

/-- `s` with the code `e` left in STATUS.ERR, as by an earlier command. -/
def State.withErr (s : State) (e : BitVec 3) : State := { s with status := setErr s.status e }

section
variable (s : State) (e : BitVec 3)

/-- A completion overwrites the old code, and every update a command makes ends with a completion. -/
theorem State.complete_withErr (c : Completion) : (s.withErr e).complete c = s.complete c :=
  congrArg (fun st => { s with status := st }) (setErr_setErr s.status e c.code)

theorem State.raise_withErr (c : Completion) : (s.withErr e).raise c = s.raise c := s.complete_withErr e c

theorem State.passThrough_withErr : (s.withErr e).passThrough = s.passThrough :=
  State.complete_withErr { s with fout := s.fin } e .success

theorem State.writeQuant_withErr (q : Quantized) (i f : Nat) :
    (s.withErr e).writeQuant q i f = s.writeQuant q i f := by
  have hstatus : setErr (setSatQ (setErr s.status e) q.sat) 0 = setErr (setSatQ s.status q.sat) 0 := by
    rw [← setErr_setSatQ, setErr_setErr]
  exact congrArg (fun st => { s.writeQuant q i f with status := st }) hstatus

theorem State.writeGains_withErr (qr qb : Quantized) (out : Frame) :
    (s.withErr e).writeGains qr qb out = s.writeGains qr qb out := by
  have hstatus : setErr (setSatB (setSatR (setErr s.status e) qr.sat) qb.sat) 0 =
      setErr (setSatB (setSatR s.status qr.sat) qb.sat) 0 := by
    rw [← setErr_setSatR, ← setErr_setSatB, setErr_setErr]
  exact congrArg (fun st => { s.writeGains qr qb out with status := st }) hstatus

theorem execQuant_withErr (i f : Nat) : execQuant i f (s.withErr e) = execQuant i f s := by
  by_cases hf : formatLegal i f
  · rw [execQuant_of_legal hf, execQuant_of_legal hf]
    exact congrArg _ (State.writeQuant_withErr (s.afterQuantize (decodeGain s.qIn)) e _ i f)
  · rw [execQuant_of_not_legal hf, execQuant_of_not_legal hf, State.raise_withErr]

theorem State.applyGains_withErr (p : BayerPattern) : (s.withErr e).applyGains p = s.applyGains p := by
  by_cases hd : depthLegal s.sensorBitdepth.toNat s.fin.frame.container
  · rw [State.applyGains_of_depthLegal p hd, State.applyGains_of_depthLegal (s := s.withErr e) p hd]
    exact State.writeGains_withErr s.afterGains e _ _ _
  · rw [State.applyGains_of_not_depthLegal p hd, State.applyGains_of_not_depthLegal (s := s.withErr e) p hd,
      State.raise_withErr]

theorem execWbapply_withErr : execWbapply (s.withErr e) = execWbapply s := by
  by_cases hc : s.wbCtrl = 0
  · rw [execWbapply_of_disabled hc, execWbapply_of_disabled (s := s.withErr e) hc, State.passThrough_withErr]
  by_cases hch : s.fin.frame.channels = 1
  · cases hp : BayerPattern.ofCode s.sensorBayer with
    | none =>
      rw [execWbapply_of_no_pattern hc hch hp, execWbapply_of_no_pattern (s := s.withErr e) hc hch hp,
        State.raise_withErr]
    | some p =>
      rw [execWbapply_of_pattern hc hch hp, execWbapply_of_pattern (s := s.withErr e) hc hch hp,
        State.applyGains_withErr]
  · rw [execWbapply_of_channels_ne_one hc hch, execWbapply_of_channels_ne_one (s := s.withErr e) hc hch,
      State.raise_withErr]

theorem execY2r_withErr : execY2r (s.withErr e) = execY2r s := by
  by_cases hc : s.cscCtrl = 0
  · rw [execY2r_of_disabled hc, execY2r_of_disabled (s := s.withErr e) hc, State.passThrough_withErr]
  by_cases hx : cscShape s.fin.frame
  · rw [execY2r_of_shape hc hx, execY2r_of_shape (s := s.withErr e) hc hx]
    exact congrArg _ (State.complete_withErr { s with fout := .holds (cscFrame s.fin.frame s.cscStd) } e .success)
  · rw [execY2r_of_not_shape hc hx, execY2r_of_not_shape (s := s.withErr e) hc hx, State.raise_withErr]

theorem exec_withErr (i : Instr) : exec i (s.withErr e) = exec i s := by
  cases i with
  | quant i f => exact execQuant_withErr s e i f
  | wbapply => exact execWbapply_withErr s e
  | y2r => exact execY2r_withErr s e

theorem commandWrite_withErr (v : HostValue) : commandWrite v (s.withErr e) = commandWrite v s := by
  cases hd : decode (commandWord v) with
  | command i => rw [commandWrite_of_command hd, commandWrite_of_command hd, exec_withErr]
  | illegal why => rw [commandWrite_of_illegal hd, commandWrite_of_illegal hd, State.raise_withErr]

end

/-- Settles O32: no test of a command is on STATUS and its completion overwrites ERR; without a write to CMD the whole
of STATUS is kept. -/
theorem oldErrorCodeHasNoEffect : Obligations.OldErrorCodeHasNoEffect := by
  refine ⟨fun i s e => exec_withErr s e i, fun v s e => commandWrite_withErr s e v, fun tr s t hcmd h => ?_⟩
  obtain ⟨hstatus, -⟩ := onlyCommandsWriteResults tr s t hcmd h
  rw [hstatus]

end Sys2Proof.Machine
end

section
/-! The step with nothing pending (70_reset_and_hazards.md R108) and with an external reset as the next event (R107). -/

namespace Sys2Proof.Machine

theorem step_of_idle {s : State} (hp : s.host.pending = []) : step s = .next s := by
  rw [step, hp]

theorem step_of_reset {s : State} {rest : List HostEvent} (hp : s.host.pending = .reset :: rest) :
    step s = .next (s.externalReset rest) := by
  rw [step, hp]

/-- An external reset leaves in each register its reset value (10_state.md R30). -/
theorem State.readReg_externalReset (s : State) (rest : List HostEvent) (r : RegName) :
    (s.externalReset rest).readReg r = State.reset.readReg r := by
  cases r <;> rfl

theorem State.regValue_externalReset (s : State) (rest : List HostEvent) (n : RegNumber) :
    (s.externalReset rest).regValue n = 0 := by
  cases h : RegName.ofNumber n with
  | none => exact State.regValue_of_unimplemented _ h
  | some r =>
    obtain rfl := RegName.number_of_ofNumber n r h
    rw [State.regValue_number, s.readReg_externalReset, ← State.regValue_number, regValue_reset]

/-- Settles O42: the step matches on the pending events and finds none. -/
theorem idleBlockExecutesNothing : Obligations.IdleBlockExecutesNothing := fun _ hp => step_of_idle hp

/-- Settles O46: the step answers the external reset, whose registers are those of the reset state and whose two
memories are the next two free frames. -/
theorem externalResetRule : Obligations.ExternalResetRule := by
  intro s rest hp
  have hmemory : ∃ a b, (s.externalReset rest).fin = .unspecified a ∧ (s.externalReset rest).fout = .unspecified b ∧
      s.draws ≤ a ∧ a < (s.externalReset rest).draws ∧ s.draws ≤ b ∧ b < (s.externalReset rest).draws :=
    ⟨s.draws, s.draws + 1, rfl, rfl, by simp⟩
  exact ⟨s.externalReset rest, step_of_reset hp, s.regValue_externalReset rest, hmemory, s.externalReset_host rest⟩

end Sys2Proof.Machine
end
